-- ==== Sys2Proof/Word.lean ====
section
/-!
DEFINITION. The number types of the AW-316: what the manual treats as bits is a bit vector (addresses, the
journal's wrapping sequence number, the bytes of a frame); station, till, slot and bank numbers are `Fin`; prices,
codes, tags and counts, which are compared with ranges that a request may break, are `Nat`; money and measures are
signed integers without a width (Chapter 5 works on exact integers).
-/

namespace Sys2Proof

/-- One byte of a frame or of a price bank's words. -/
abbrev Byte := BitVec 8

/-- A station number, 0 to 15 (Table 4). -/
abbrev Station := Fin 16

/-- A till line, 0 to 7 (Table 4). -/
abbrev TillNo := Fin 8

/-- A park slot, 0 to 15 (Table 4). -/
abbrev ParkNo := Fin 16

/-- A price bank, 0 or 1 (Table 4). -/
abbrev BankNo := Fin 2

/-- A journal sequence number: 32 bits, after 4,294,967,295 comes 0 (R147). -/
abbrev Seq := BitVec 32

/-- A 32-bit packet address (R157). -/
abbrev NetAddr := BitVec 32

/-- The 48-bit address of a guest client (R172). -/
abbrev ClientAddr := BitVec 48

/-- The top of every 32-bit count: counters stay there (R46, R170), the price generation is exhausted there (R13). -/
abbrev u32Max : Nat := 4294967295

/-- A table held sparsely: pairs of an index and a value, indexes strictly rising, no pair holding the value that an
unlisted index reads as (`Tbl.wf`). -/
abbrev Tbl (α : Type) := List (Nat × α)

end Sys2Proof
end

