-- ==== Sys2Proof/Machine/Records.lean ====
section
/-!
DEFINITION. The records the manual describes: item records and department entries (Chapter 1), basket lines, tenders
and answers (Chapters 4 and 5), park content (Chapter 6), label entries (Chapter 7), journal records (Chapter 8),
packets and routes (Chapter 9), client and code entries (Chapter 10), night messages (Chapter 11), the setup record
and the record-read entries (Chapter 12), and the trunk frames that carry them (Chapter 2). Data only.
-/

namespace Sys2Proof.Machine

/-! ## Time -/

/-- A time of day: day number and second of day (section 6.2). -/
structure Time where
  day : Nat
  sec : Nat
  deriving DecidableEq, Repr

/-- The clock's state, from lowest to highest (section 12.2). -/
inductive ClockState where
  | unset
  | peerSet
  | officeSet
  deriving DecidableEq, Repr

/-! ## Chapter 1: prices -/

inductive Basis where
  | each
  | perKg
  deriving DecidableEq, Repr

/-- Table 1-2, promotion. -/
inductive Promotion where
  | multiBuy (n m : Nat)
  | percentOff (p : Nat)
  deriving DecidableEq, Repr

inductive LabelClass where
  | fast
  | slow
  deriving DecidableEq, Repr

/-- An item record (Table 1-2); an absent optional field is `none`. -/
structure ItemRecord where
  code : Nat
  dept : Nat
  unitPrice : Nat
  basis : Basis
  taxClass : Nat
  overrideLevel : Nat
  promotion : Option Promotion := none
  packSize : Option Nat := none
  labelIndex : Option Nat := none
  labelClass : Option LabelClass := none
  description : Option (List Nat) := none
  deriving DecidableEq, Repr

/-- An item record as an ITEM APPEND carries it (R3): its basis, promotion kind and label class are each one of the
values of Table 1-2, or lie outside the table, when the value beside the mark is without meaning. -/
structure AppendItem extends ItemRecord where
  basisOk : Bool := true
  promotionOk : Bool := true
  classOk : Bool := true
  deriving DecidableEq, Repr

/-- A department entry (R5); an open-price level of `none` is NOT ALLOWED. -/
structure DeptEntry where
  overrideLevel : Nat
  openPrice : Option Nat
  taxClass : Nat
  deriving DecidableEq, Repr

/-- One entry of a DEPT order (R10). -/
structure DeptItem where
  dept : Nat
  entry : DeptEntry
  deriving DecidableEq, Repr

/-- A head-office order's body (R6); the bank and the tag travel beside it. -/
inductive Order where
  | eraseStaged
  | dept (entries : List DeptItem)
  | itemAppend (records : List AppendItem)
  | seal (count day minute : Nat)
  deriving DecidableEq, Repr

/-- Table 1-3. -/
inductive OrderOutcome where
  | done
  | busy
  | inForce
  | torn
  | state
  | badRecord
  | deptSet
  | outOfOrder
  | noDept
  | labelTaken
  | full
  | countMismatch
  | exhausted
  | superseded
  deriving DecidableEq, Repr

/-- The fields of an ORDER RESULT (R6). -/
structure OrderResult where
  bank : BankNo
  outcome : OrderOutcome
  written : Nat
  count : Nat
  sealGen : Option Nat := none
  deriving DecidableEq, Repr

/-- Table 1-1. -/
inductive BankState where
  | erased
  | erasing
  | filling
  | torn
  | sealed
  | active
  | retired
  deriving DecidableEq, Repr

/-- What a bank's SEAL word carries (R2). -/
structure SealWord where
  count : Nat
  gen : Nat
  day : Nat
  minute : Nat
  deriving DecidableEq, Repr

/-- A bank's header entry, as a record read shows it (R24). -/
structure HeaderEntry where
  bank : BankNo
  state : BankState
  intended : Option Nat
  complete : Nat
  sealed : Option SealWord
  active : Bool
  retired : Bool
  deriving DecidableEq, Repr

/-! ## Chapters 4 and 5: lines, tenders, answers -/

/-- Why a lookup is made (R47). -/
inductive Purpose where
  | sale
  | enquiry
  deriving DecidableEq, Repr

/-- A SCAN's measure: a quantity, or a weight in grams. -/
inductive Measure where
  | quantity (q : Int)
  | weight (g : Int)
  deriving DecidableEq, Repr

inductive LineSource where
  | localBank
  | remote
  | keyed
  deriving DecidableEq, Repr

/-- Item code of a SCAN line, or department of a keyed one (Table 4-8). -/
inductive LineSubject where
  | item (code : Nat)
  | dept (d : Nat)
  deriving DecidableEq, Repr

/-- The fields of a line that its LINE or VOID record carries (Table 8-3). -/
structure LineBody where
  number : Nat
  subject : LineSubject
  source : LineSource
  owner : Station
  ownerGen : Nat
  measure : Measure
  unitPrice : Nat
  priceBefore : Option Nat := none
  basis : Basis
  taxClass : Nat
  requiredLevel : Nat
  extended : Int := 0
  discount : Int := 0
  net : Int := 0
  voided : Bool := false
  overridden : Bool := false
  isReturn : Bool := false
  promoSkipped : Bool := false
  limit : Bool := false
  deriving DecidableEq, Repr

/-- One OVERRIDE taken on a line (R79). -/
structure OverrideRec where
  oldPrice : Nat
  newPrice : Nat
  level : Nat
  deriving DecidableEq, Repr

/-- The line record (Table 4-8). -/
structure Line extends LineBody where
  promotion : Option Promotion := none
  overrides : List OverrideRec := []
  deriving DecidableEq, Repr

/-- A promotion entry (Table 5-4); the key is code and owner generation. -/
structure PromoEntry where
  code : Nat
  gen : Nat
  n : Nat
  m : Nat
  price : Nat
  taxClass : Nat
  count : Nat
  groups : Nat
  discount : Nat
  deriving DecidableEq, Repr

inductive TenderMethod where
  | cash
  | card
  | voucher
  deriving DecidableEq, Repr

structure Tender where
  method : TenderMethod
  tendered : Int
  applied : Int
  deriving DecidableEq, Repr

/-- Table 4-7. -/
inductive BasketState where
  | empty
  | opened
  | subtotal
  | tendering
  | recalling
  deriving DecidableEq, Repr

/-- Class gross of classes 0 to 3 and the basket total (R97). -/
structure Amounts where
  gross : Vector Int 4
  total : Int
  deriving DecidableEq, Repr

/-- A signed-on cashier (R68). -/
structure Session where
  cashier : Nat
  level : Nat
  deriving DecidableEq, Repr

/-- The fourteen requests of a till (Table 2-13, in the order of their codes). -/
inductive ReqKind where
  | signOn
  | signOff
  | scan
  | key
  | voidLast
  | voidLine
  | override
  | subtotal
  | tender
  | refund
  | park
  | recall
  | cancel
  | enquire
  deriving DecidableEq, Repr

/-- Table 4-4. -/
inductive Refused where
  | notReady
  | noSession
  | level
  | state
  | pending
  | busy
  | basketFull
  | badQty
  | badPrice
  | unknownItem
  | noTrunk
  | journalFull
  | noTicket
  | inUse
  | recallFailed
  | overTender
  deriving DecidableEq, Repr

/-- Group end kind shown in CLOSED (Table 4-3). -/
inductive EndKind where
  | sale
  | cancel
  deriving DecidableEq, Repr

/-- A guest code: issuer station and serial (section 10.4). -/
structure GuestCode where
  issuer : Station
  serial : Nat
  deriving DecidableEq, Repr

/-- The TOTALS answer (Table 4-3). -/
structure Totals where
  session : Option Session
  state : BasketState
  lineCount : Nat
  amounts : Option Amounts
  tax : Option (Vector Int 4)
  remaining : Int
  cashDue : Int
  tenders : Nat
  limit : Bool
  deriving DecidableEq, Repr

/-- The PRICE answer (Table 4-3). -/
structure PriceInfo where
  code : Nat
  source : LineSource
  owner : Station
  ownerGen : Nat
  unitPrice : Nat
  basis : Basis
  taxClass : Nat
  promotion : Option Promotion
  packSize : Option Nat
  description : Option (List Nat)
  deriving DecidableEq, Repr

/-- Answers to a till (Table 4-3). -/
inductive Answer where
  | line (l : Line) (total : Int) (limit : Bool)
  | totals (t : Totals)
  | tendered (number : Nat) (method : TenderMethod) (applied remaining cashDue : Int)
  | closed (group : Seq) (kind : EndKind) (total paid : Int) (code : Option GuestCode)
  | parked (ticket : Nat)
  | recalled (ticket lineCount : Nat) (total : Int) (limit : Bool)
  | price (p : PriceInfo)
  | refused (r : Refused)
  deriving DecidableEq, Repr

/-! ## Chapter 6: parked baskets -/

/-- The basket content that a park entry holds and a transfer carries (Tables 6-1 and 6-2, R107). -/
structure ParkContent where
  lines : List Line
  promos : List PromoEntry
  limit : Bool
  origin : TillNo
  cashier : Nat
  parked : Option Time
  held : Nat
  deriving DecidableEq, Repr

/-- What part 1 of PARK DATA carries beside its lines (Table 6-2). -/
structure ParkHead where
  origin : TillNo
  cashier : Nat
  parked : Option Time
  lineCount : Nat
  held : Nat
  limit : Bool
  promos : List PromoEntry
  deriving DecidableEq, Repr

/-- One PARK DATA part: number k, count n, the head in part 1 alone, and its share of the lines. -/
structure ParkPart where
  k : Nat
  n : Nat
  head : Option ParkHead
  lines : List Line
  deriving DecidableEq, Repr

/-- Outcome of a RELEASE ANSWER (Table 6-2). -/
inductive ReleaseOutcome where
  | released
  | tooLate
  | inUse
  | noTicket
  deriving DecidableEq, Repr

inductive ParkState where
  | free
  | parked
  | inTransfer
  | abandoning
  deriving DecidableEq, Repr

/-- The requester recorded by an owner (R115). -/
structure Requester where
  station : Station
  till : TillNo
  tag : Nat
  deriving DecidableEq, Repr

/-! ## Chapter 7: labels -/

/-- Table 7-2. -/
inductive LabelState where
  | unbound
  | unchecked
  | review
  | stale
  | current
  | unreachable
  deriving DecidableEq, Repr

/-- A label entry (Table 7-1). -/
structure LabelEntry where
  state : LabelState := .unbound
  position : Option Nat := none
  wakeClass : LabelClass := .slow
  failCount : Nat := 0
  wakeCount : Nat := 0
  confirmed : Option Nat := none
  shown : Option Nat := none
  batteryLow : Bool := false
  displayFault : Bool := false
  stayFast : Nat := 0
  blankPending : Bool := false
  deriving DecidableEq, Repr

/-- The five parts of a record's display content (R128). -/
structure DisplayContent where
  unitPrice : Nat
  basis : Basis
  comparison : Option Nat
  promotion : Option Promotion
  description : Option (List Nat)
  deriving DecidableEq, Repr

/-- Messages to a label (R128); a DISPLAY without content is a blank. -/
inductive LabelMsg where
  | display (label gen : Nat) (content : Option DisplayContent)
  | ping (label : Nat) (rebase : Option (Nat × Nat))
  deriving DecidableEq, Repr

/-- A label's ACK as received: whether its check passes, the index it names, and its report (R128). -/
structure LabelAck where
  checkOk : Bool
  label : Nat
  shown : Nat
  batteryLow : Bool
  displayFault : Bool
  deriving DecidableEq, Repr

/-! ## Chapter 8: the journal -/

/-- What a SALE record carries (Table 8-3); each promotion is code, owner generation and discount. `cashDue` is the
cash due of the closing tender, which R103 adds to the table's fields (log 40); a refund has none. -/
structure SaleRec where
  till : TillNo
  cashier : Nat
  time : Option Time
  lineCount : Nat
  gross : Vector Int 4
  tax : Vector Int 4
  total : Int
  tenders : List Tender
  paid : Int
  cashDue : Option Int
  rounding : Int
  limit : Bool
  promos : List (Nat × Nat × Nat)
  code : Option GuestCode
  deriving DecidableEq, Repr

/-- What a CANCEL record carries (Table 8-3), with the rounding difference that R105 gives it and the table does not
list (log 41). -/
structure CancelRec where
  till : TillNo
  cashier : Nat
  time : Option Time
  lineCount : Nat
  gross : Vector Int 4
  tax : Vector Int 4
  total : Int
  rounding : Int
  limit : Bool
  deriving DecidableEq, Repr

/-- What an ABANDON record carries (R120, Table 8-3). -/
structure AbandonRec where
  ticket : Nat
  origin : TillNo
  cashier : Nat
  parked : Option Time
  time : Option Time
  lineCount : Nat
  gross : Vector Int 4
  total : Int
  limit : Bool
  deriving DecidableEq, Repr

/-- A journal record's kind with its body (Table 8-3). -/
inductive JBody where
  | line (b : LineBody)
  | voidLine (b : LineBody)
  | override (number oldPrice newPrice level : Nat)
  | sale (r : SaleRec)
  | cancel (r : CancelRec)
  | abandon (r : AbandonRec)
  | recovered (incomplete : Bool) (first : Seq) (found : Nat)
  deriving DecidableEq, Repr

/-- A record as written: body and sequence number (R147). The group-closing mark is `JBody.closes`. -/
structure JRecord where
  body : JBody
  seq : Seq
  deriving DecidableEq, Repr

/-! ## Chapter 12: setup -/

/-- A prefix: an address and a length 0 to 32 (section 9.1). -/
structure Net where
  addr : NetAddr
  len : Nat
  deriving DecidableEq, Repr

/-- Table 9-1, next hop. -/
inductive NextHop where
  | uplink
  | trunkCarrier
  | trunkStation (n : Station)
  | tillLines
  | guestPort
  | drop
  deriving DecidableEq, Repr

/-- A packet's origin class (R157). -/
inductive OriginClass where
  | till
  | office
  | guest
  deriving DecidableEq, Repr

/-- A route entry's prefix, next hop and permission mask (Table 9-1). -/
structure Route where
  net : Net
  hop : NextHop
  till : Bool
  office : Bool
  guest : Bool
  deriving DecidableEq, Repr

/-- An extra static route as a SETUP frame carries it (Table 12-1): a route, or a prefix whose next hop is none of
Table 9-1's, a TRUNK station above 15 among them. -/
inductive ExtraRoute where
  | route (r : Route)
  | badHop (net : Net)
  deriving DecidableEq, Repr

/-- An enumerated setup field as a SETUP frame carries it: one of its two values, or out of range. -/
inductive SetupChoice where
  | no
  | yes
  | outOfRange
  deriving DecidableEq, Repr

/-- The setup record (Table 12-1). `uplink` is NONE (`no`) or CABLED (`yes`); `guestService` is off or on. -/
structure SetupRecord where
  store : Nat
  zone : Nat
  uplink : SetupChoice
  enabled : Vector Bool 8
  ceiling : Vector Nat 8
  rates : Vector Nat 4
  cashStep : Nat
  channel : Nat
  slots : Nat
  period : Nat
  guestService : SetupChoice
  guestShare : Nat
  threshold : Nat
  winStart : Nat
  winEnd : Nat
  stationAddr : NetAddr
  officeAddr : NetAddr
  tillNet : Net
  guestNet : Net
  officeNet : Net
  extra : List ExtraRoute
  now : Option Time
  deriving DecidableEq, Repr

/-- The fields of Table 12-1 that can be out of range, in its order (R202). -/
inductive SetupField where
  | store
  | zone
  | uplink
  | ceiling
  | rates
  | cashStep
  | channel
  | guestService
  | threshold
  | window
  | tillNet
  | guestNet
  | officeNet
  | extra
  | now
  deriving DecidableEq, Repr

/-- Table 2-2 kind 4, contents as R202 and R203 give them. -/
inductive SetupResult where
  | done
  | alreadySet
  | badSetup (f : SetupField)
  | busy
  deriving DecidableEq, Repr

/-! ## Chapter 2: ANNOUNCE and the peer table -/

/-- ANNOUNCE contents (Table 2-8); the station number is the frame's source. -/
structure AnnounceInfo where
  zone : Nat
  setupPresent : Bool
  cabled : Bool
  linkUp : Bool
  gen : Nat
  journalFree : Nat
  journalLow : Bool
  subnet : Option Net
  clock : Option Time
  clockState : ClockState
  night : Bool
  unreachable : Nat
  deriving DecidableEq, Repr

inductive PeerState where
  | absent
  | present
  | stale
  deriving DecidableEq, Repr

/-- The role flags of a peer entry (Table 2-9). -/
structure RoleFlags where
  setupPresent : Bool
  cabled : Bool
  linkUp : Bool
  journalLow : Bool
  night : Bool
  deriving DecidableEq, Repr

/-- A peer table entry (Table 2-9). -/
structure PeerEntry where
  state : PeerState := .absent
  zone : Option Nat := none
  flags : Option RoleFlags := none
  gen : Nat := 0
  journalFree : Option Nat := none
  subnet : Option Net := none
  clockState : Option ClockState := none
  unreachable : Option Nat := none
  age : Option Nat := none
  deriving DecidableEq, Repr

/-! ## Chapter 10: guests -/

inductive ClientState where
  | free
  | opened
  | checking
  | admitted
  | blocked
  deriving DecidableEq, Repr

/-- A check at another station (Table 10-2): issuer, tag, and ms left of 50. -/
structure CodeCheck where
  issuer : Station
  tag : Nat
  ms : Nat
  deriving DecidableEq, Repr

/-- A client entry (Table 10-2). Admission and block remaining are held in ms of running time. -/
structure ClientEntry where
  state : ClientState := .free
  addr : ClientAddr := 0
  net : Option NetAddr := none
  code : Option GuestCode := none
  admissionMs : Nat := 0
  check : Option CodeCheck := none
  parity : Bool := false
  windowBytes : Nat := 0
  totalBytes : Nat := 0
  strikes : Nat := 0
  blockMs : Nat := 0
  lastActivity : Nat := 0
  deriving DecidableEq, Repr

/-- A code list entry (Table 10-3). Valid remaining is held in ms of running time. -/
structure CodeEntry where
  serial : Nat
  uses : Nat
  validMs : Nat
  issued : Option Time
  till : TillNo
  deriving DecidableEq, Repr

inductive CheckMode where
  | check
  | giveBack
  deriving DecidableEq, Repr

/-- Why a code is denied (R171, R179, R180). -/
inductive DenyReason where
  | notJoined
  | malformed
  | unknown
  | used
  deriving DecidableEq, Repr

/-- CODE ANSWER outcome (R180). -/
inductive CodeOutcome where
  | ok
  | deny (r : DenyReason)
  deriving DecidableEq, Repr

inductive JoinResult where
  | accepted
  | denyFull
  | noService
  deriving DecidableEq, Repr

inductive CodeResult where
  | admitted (minutes : Nat)
  | deny (r : DenyReason)
  | retry
  | checking
  | blocked (minutes : Nat)
  deriving DecidableEq, Repr

inductive ClientNotice where
  | opened
  | blocked
  | evicted
  deriving DecidableEq, Repr

/-! ## Record reads (R24, R46, R122, R141, R156, R186, R206) -/

/-- The controller entry of record bank 0x10 (R141). -/
structure LabelControl where
  running : Bool
  sweep : Bool
  passCount : Nat
  review : Bool
  cycle : Nat
  slots : Option Nat
  period : Option Nat
  slotsClamped : Bool
  periodClamped : Bool
  channel : Option Nat
  deriving DecidableEq, Repr

/-- A park entry as record bank 0x50 shows it (R122). -/
structure ParkView where
  state : ParkState
  ticket : Option Nat
  origin : Option TillNo
  cashier : Option Nat
  parked : Option Time
  lineCount : Option Nat
  held : Nat
  requester : Option Requester
  abandonPending : Bool
  deriving DecidableEq, Repr

inductive TrunkState where
  | listening
  | active
  | dupHold
  | dupListen
  deriving DecidableEq, Repr

inductive SessionState where
  | day
  | calling
  | opened
  | closing
  deriving DecidableEq, Repr

inductive UploadState where
  | idle
  | uploading
  | suspended
  deriving DecidableEq, Repr

/-- Journal values of the status record (R144). -/
structure JournalStatus where
  used : Nat
  reserved : Nat
  free : Nat
  erasing : Nat
  head : Nat
  tail : Nat
  headSeq : Option Seq
  endSeq : Seq
  pagesErased : Nat
  pagesWriting : Nat
  pagesFull : Nat
  pagesErasing : Nat
  awaiting : Nat
  low : Bool
  deriving DecidableEq, Repr

/-- Label values of the status record (R142). -/
structure LabelStatus where
  unbound : Nat
  unchecked : Nat
  review : Nat
  stale : Nat
  current : Nat
  unreachable : Nat
  batteryLow : Nat
  displayFault : Nat
  owedBlank : Nat
  slotsClamped : Bool
  periodClamped : Bool
  deriving DecidableEq, Repr

/-- Client and code values of the status record (R186). -/
structure GuestStatus where
  free : Nat
  opened : Nat
  checking : Nat
  admitted : Nat
  blocked : Nat
  codes : Nat
  notIssued : Nat
  notReturned : Nat
  deriving DecidableEq, Repr

/-- Forwarding values of the status record (R170). -/
structure ForwardStatus where
  till : Nat
  office : Nat
  guest : Nat
  credit : Int
  setupRoutes : Nat
  learnedRoutes : Nat
  pending : Nat
  deriving DecidableEq, Repr

/-- Night values of the status record (R201); `done` is the upload's DONE (R199). -/
structure NightStatus where
  session : SessionState
  carrier : Option Station
  served : Bool
  hold : Bool
  upload : UploadState
  done : Bool
  journalBlocks : Nat
  activityBlocks : Nat
  sendList : Nat
  deriving DecidableEq, Repr

/-- The counters of Table 12-2. -/
structure Counters where
  badFrames : Nat
  collisions : Nat
  duplicateEntries : Nat
  droppedTill : Nat
  droppedGuest : Nat
  droppedOffice : Nat
  noCarrier : Nat
  lostSnapshots : Nat
  lostTransfers : Nat
  codesNotIssued : Nat
  codesNotReturned : Nat
  nightDropped : Nat
  callsFailed : Nat
  sessionsOpened : Nat
  readsDropped : Nat
  deriving DecidableEq, Repr

/-- The causes of the FAULT condition (R207); `recovering` is the time from reset to the end of both recoveries. -/
structure FaultCauses where
  recovering : Bool
  unset : Bool
  duplicate : Bool
  journalLow : Bool
  torn : Bool
  deriving DecidableEq, Repr

/-- The status record (R206). -/
structure StatusRecord where
  set : Bool
  trunk : TrunkState
  clock : Option Time
  clockState : ClockState
  dayMark : Option Int
  gen : Nat
  bank0 : BankState
  bank1 : BankState
  journal : JournalStatus
  labels : LabelStatus
  guests : GuestStatus
  forward : ForwardStatus
  night : NightStatus
  slotsClamped : Bool
  periodClamped : Bool
  shareClamped : Bool
  fault : FaultCauses
  counters : Counters
  deriving DecidableEq, Repr

/-- One entry of a record read. -/
inductive ReadEntry where
  | absent
  | record (r : ItemRecord)
  | header (h : HeaderEntry)
  | dept (e : DeptEntry)
  | label (e : LabelEntry) (code : Option Nat)
  | labelControl (c : LabelControl)
  | journal (r : JRecord) (closes acked : Bool)
  | client (c : ClientEntry)
  | guestUnit (service : Bool) (serial codes : Nat)
  | code (c : CodeEntry) (full : GuestCode)
  | peer (p : PeerEntry)
  | park (v : ParkView)
  | status (r : StatusRecord)
  | setup (r : SetupRecord)
  deriving DecidableEq, Repr

/-! ## Chapter 11: night messages -/

/-- Night messages (Table 11-1). An ORDER RESULT without fields is NOT-REACHED (R195). -/
inductive NightMsg where
  | sessionOpen (store : Nat) (carrier : Station) (gen : Nat) (dayMark : Option Int)
  | sessionAccept (t : Time)
  | sessionEnd
  | order (target : Station) (tag : Nat) (bank : BankNo) (o : Order)
  | orderResult (station : Station) (tag : Nat) (r : Option OrderResult)
  | read (target : Station) (tag bank index count : Nat)
  | records (station : Station) (tag : Nat) (entries : List ReadEntry)
  | journalBlock (station : Station) (first : Seq) (count : Nat) (records : List JRecord)
  | activityBlock (station : Station) (number gen : Nat) (codes : List Nat)
  | ackJournal (station : Station) (first : Seq) (count : Nat)
  | ackActivity (station : Station) (number : Nat)
  deriving DecidableEq, Repr, Inhabited

/-- What a BLOCK ACK frame acknowledges (Table 11-1). -/
inductive BlockRef where
  | journal (first : Seq) (count : Nat)
  | activity (number : Nat)
  deriving DecidableEq, Repr

/-! ## Packets and trunk frames -/

/-- A packet's contents: bytes that are carried and never read, or a night message between the station address and
head office (sections 9.1 and 11.3). -/
inductive PacketBody where
  | data (bytes : List Byte)
  | night (m : NightMsg)
  deriving DecidableEq, Repr, Inhabited

/-- A packet: addresses, length and contents (section 9.1). -/
structure Packet where
  src : NetAddr
  dst : NetAddr
  len : Nat
  body : PacketBody
  deriving DecidableEq, Repr

/-- One RELAY part (R164): part k of n, the number of bytes it holds, and the packet they are of. -/
structure RelayPart where
  origin : OriginClass
  k : Nat
  n : Nat
  bytes : Nat
  packet : Packet
  deriving DecidableEq, Repr

/-- The contents of a frame this station sends (Table 2-2). -/
inductive Payload where
  | announce (a : AnnounceInfo)
  | priceNotice (gen : Nat)
  | setupAnswer (r : SetupResult)
  | priceQuery (code : Nat) (purpose : Purpose)
  | priceAnswer (gen : Nat) (rec : ItemRecord) (level : Nat)
  | recall (ticket : Nat) (till : TillNo)
  | parkData (ticket : Nat) (part : ParkPart)
  | release (ticket : Nat)
  | releaseAnswer (ticket : Nat) (o : ReleaseOutcome)
  | codeCheck (mode : CheckMode) (code : GuestCode)
  | codeAnswer (code : GuestCode) (o : CodeOutcome)
  | relay (p : RelayPart)
  | office (m : NightMsg) (k n : Nat)
  | blockAck (b : BlockRef)
  | records (entries : List ReadEntry)
  deriving DecidableEq, Repr

/-- A frame's destination (Table 2-1). -/
inductive Dest where
  | station (n : Station)
  | broadcast
  deriving DecidableEq, Repr

/-- A frame in a transmit queue; its source is this station (Table 2-1). -/
structure Frame where
  dest : Dest
  tag : Nat
  payload : Payload
  deriving DecidableEq, Repr

/-- Frame classes (Table 2-1). -/
inductive FrameClass where
  | a
  | b
  | c
  deriving DecidableEq, Repr

/-- The eighteen frame kinds, in the order of their codes (Table 2-2). -/
inductive FrameKind where
  | announce
  | priceNotice
  | setup
  | setupAnswer
  | clearSetup
  | priceQuery
  | priceAnswer
  | recall
  | parkData
  | release
  | releaseAnswer
  | codeCheck
  | codeAnswer
  | relay
  | office
  | blockAck
  | readRecords
  | records
  deriving DecidableEq, Repr

/-- A trunk frame as its bytes are heard, with the origin class a RELAY's payload carries (the manual gives the
payload no byte layout, so the class stands beside the bytes; R27). -/
structure RawFrame where
  bytes : List Byte
  origin : Option OriginClass
  deriving DecidableEq, Repr

/-- A till line frame as its bytes are heard, and whether its length is that of its request's payload (the manual
gives the request payloads no byte layout; R64). -/
structure RawTillFrame where
  bytes : List Byte
  lengthOk : Bool
  deriving DecidableEq, Repr

/-! ## What the part gives its lines -/

/-- Messages to the guest Wi-Fi radio (Table 10-1). -/
inductive AirMsg where
  | joinResult (a : ClientAddr) (r : JoinResult)
  | codeResult (a : ClientAddr) (r : CodeResult)
  | notice (a : ClientAddr) (n : ClientNotice)
  | data (p : Packet)
  | restart
  deriving DecidableEq, Repr

/-- One message the part has given to a line. -/
inductive Output where
  | answer (till : TillNo) (tag : Nat) (a : Answer)
  | tillData (till : TillNo) (p : Packet)
  | trunk (f : Frame)
  | label (channel : Nat) (m : LabelMsg)
  | air (m : AirMsg)
  | uplink (p : Packet)
  deriving DecidableEq, Repr

/-- The link rates of the uplink port (section 9.6). -/
inductive LinkRate where
  | mbit10
  | mbit100
  | mbit1000
  deriving DecidableEq, Repr

/-! ## The wait for recovery (sections 1.7 and 8.6) -/

/-- What is kept until a recovery it needs has ended (log 5): a till's request from the point at which it needs the
recovery on, another station's query or read, or an order, read or acknowledgement of the night link. -/
inductive Waiting where
  /-- a SCAN whose checks have passed, for the lookup -/
  | scan (line : TillNo) (tag code : Nat) (m : Measure)
  /-- an ENQUIRE, for the lookup -/
  | enquire (line : TillNo) (tag code : Nat)
  /-- a KEY that found room in the basket, for the department entry -/
  | key (line : TillNo) (tag dept price : Nat) (quantity : Int) (claimed : Option Nat)
  /-- a line with its price, for its reservation -/
  | addLine (line : TillNo) (tag : Nat) (l : Line)
  /-- an OVERRIDE whose checks have passed, for its reservation -/
  | override (line : TillNo) (tag price level : Nat) (l : Line)
  /-- a remote RECALL, for its reservation -/
  | recall (line : TillNo) (tag ticket : Nat) (owner : Station)
  /-- another station's PRICE QUERY -/
  | query (src : Station) (tag code : Nat) (purpose : Purpose)
  /-- another station's READ RECORDS -/
  | read (src : Station) (tag bank index count : Nat)
  /-- a READ of head office -/
  | officeRead (tag bank index count : Nat)
  /-- an order for the item store -/
  | order (tag : Nat) (bank : BankNo) (o : Order)
  /-- an acknowledgement of a journal block -/
  | ack (ref : BlockRef)
  deriving DecidableEq, Repr

/-- The till line whose request waits. -/
def Waiting.tillOf : Waiting → Option TillNo
  | .scan k _ _ _ | .enquire k _ _ | .key k _ _ _ _ _ | .addLine k _ _ | .override k _ _ _ _ | .recall k _ _ _ => some k
  | .query _ _ _ _ | .read _ _ _ _ _ | .officeRead _ _ _ _ | .order _ _ _ | .ack _ => none

/-- The RECALL of a till line waits. -/
def Waiting.isRecall (k : TillNo) : Waiting → Bool
  | .recall l _ _ _ => decide (l = k)
  | _ => false

/-! ## Power loss -/

/-- How far a bank's erase had come at a power loss (R8, R22): no header word cleared; the first `words` header
words cleared (OPEN first) with content left; every header word cleared, with the department table and the first
`records` records still standing among the content left; all erased. -/
inductive EraseStage where
  | untouched
  | headerPartly (words : Nat)
  | contentLeft (depts : Bool) (records : Nat)
  | allErased
  deriving DecidableEq, Repr

/-- How far a journal page's erase had come at a power loss (R153, R154). -/
inductive PageStage where
  | untouched
  | wordCleared
  | allErased
  deriving DecidableEq, Repr

/-- How far the record after the whole ones of the group in progress had come at a power loss (R143, R147, R154):
nothing of it; the page word of the page that it opens, if it opens one; its body without a good closing word. -/
inductive RecordStage where
  | untouched
  | pageWord
  | incomplete
  deriving DecidableEq, Repr

/-- The non-volatile write of a command that the power loss fell into (a command is whole; a loss inside it leaves
the part of its writes said here). -/
inductive CutWrite where
  /-- nothing was being written -/
  | nothing
  /-- an OPEN word was being written into an ERASED bank: its check fails -/
  | openWord (bank : BankNo)
  /-- an ITEM APPEND: the whole records written, then `words` words of the next one -/
  | append (bank : BankNo) (whole : List AppendItem) (next : AppendItem) (words : Nat)
  /-- a DEPT: the whole entries written before `next`; the OPEN word stands even where there are none -/
  | dept (bank : BankNo) (whole : List DeptItem) (next : DeptItem)
  /-- a SEAL: the SEAL word's check fails -/
  | sealWord (bank : BankNo)
  /-- a due switchover to a SEALED bank: the ACTIVE word's check fails (`false`), or ACTIVE is written and RETIRED is
  not (`true`) -/
  | switchover (bank : BankNo) (activeDone : Bool)
  deriving DecidableEq, Repr

/-- What a power loss left behind in the non-volatile stores. -/
structure PowerCut where
  erase0 : EraseStage := .untouched
  erase1 : EraseStage := .untouched
  page : PageStage := .untouched
  /-- complete records of the group being written -/
  groupRecords : Nat := 0
  /-- the record of that group after them -/
  groupNext : RecordStage := .untouched
  write : CutWrite := .nothing
  deriving DecidableEq, Repr

end Sys2Proof.Machine
end

