-- ==== Sys2Proof/Syntax.lean ====
section
/-!
DEFINITION. The commands of the AW-316: one constructor for each row of spec/opcode_table.json, in the table's order,
with the operands that the row's rule gives the frame, request, message or event.

`src` is a frame's source station, `tag` its tag; `line` is a till line. A request's `tag` is the till's. Fields that
a rule checks against a range are `Nat` or `Int`, so that an out-of-range value can be asked. The unit price of a KEY
or OVERRIDE and the amount of a TENDER are taken as unsigned fields (log 43).
-/

namespace Sys2Proof

open Sys2Proof.Machine

inductive Instr where
  /-- POWER_ON_RESET (R46): the pins sampled, and what the power loss left in the non-volatile stores. -/
  | powerOnReset (pins : Station) (cut : PowerCut)
  /-- ITEM_STORE_RECOVERY (R22). -/
  | itemStoreRecovery
  /-- JOURNAL_RECOVERY (R154). -/
  | journalRecovery
  /-- LISTEN_END (R36). -/
  | listenEnd
  /-- ANNOUNCE_TIMER (R40). -/
  | announceTimer
  /-- CONTENTION_SLOT (R30): the slot's class, and whether carrier was sensed earlier in the round. -/
  | contentionSlot (cls : FrameClass) (carrier : Bool)
  /-- CONTENTION_ROUND_END (R26). -/
  | contentionRoundEnd
  /-- TRANSMISSION_SENT (R31). -/
  | transmissionSent
  /-- GARBLED_TRANSMISSION (R31). -/
  | garbledTransmission
  /-- ROOM_OFFERED (R34). -/
  | roomOffered
  /-- BAD_FRAME (R27): the frame as heard. -/
  | badFrame (f : RawFrame)
  /-- OWN_NUMBER_FRAME (R37). -/
  | ownNumberFrame
  /-- FRAME_NOT_DELIVERED (R29): a good frame's source, destination and kind. -/
  | frameNotDelivered (src : Station) (dst : Dest) (kind : FrameKind)
  /-- DUPLICATE_HOLD_END (R39). -/
  | duplicateHoldEnd
  /-- DUPLICATE_LISTEN_END (R39). -/
  | duplicateListenEnd
  /-- PEER_STALE (R44): the peer's number. -/
  | peerStale (n : Station)
  /-- PEER_ABSENT (R44): the peer's number. -/
  | peerAbsent (n : Station)
  /-- ANNOUNCE (R42). -/
  | announce (src : Station) (a : AnnounceInfo)
  /-- PRICE_NOTICE (R43). -/
  | priceNotice (src : Station) (gen : Nat)
  /-- SETUP (R202). -/
  | setup (src : Station) (tag : Nat) (r : SetupRecord)
  /-- CLEAR_SETUP (R203). -/
  | clearSetup (src : Station) (tag : Nat)
  /-- SETUP_ANSWER (R206). -/
  | setupAnswer (src : Station) (tag : Nat) (r : SetupResult)
  /-- PRICE_QUERY (R53). -/
  | priceQuery (src : Station) (tag code : Nat) (purpose : Purpose)
  /-- PRICE_ANSWER (R54): generation, record fields (the item code among them) and folded level of R52. -/
  | priceAnswer (src : Station) (tag gen : Nat) (item : ItemRecord) (level : Nat)
  /-- QUERY_TIMER_EXPIRY (R58). -/
  | queryTimerExpiry (line : TillNo)
  /-- RECALL_FRAME (R115): ticket and the requester's till line. -/
  | recallFrame (src : Station) (tag ticket : Nat) (till : TillNo)
  /-- PARK_DATA (R116). -/
  | parkData (src : Station) (tag ticket : Nat) (part : ParkPart)
  /-- RELEASE (R117). -/
  | release (src : Station) (tag ticket : Nat)
  /-- RELEASE_ANSWER (R118). -/
  | releaseAnswer (src : Station) (tag ticket : Nat) (outcome : ReleaseOutcome)
  /-- TRANSFER_TIMER_EXPIRY (R117): the park entry. -/
  | transferTimerExpiry (slot : ParkNo)
  /-- RECALL_TIMER_EXPIRY (R118): the till line of the recall context. -/
  | recallTimerExpiry (line : TillNo)
  /-- CODE_CHECK (R180). -/
  | codeCheck (src : Station) (tag : Nat) (code : GuestCode)
  /-- CODE_CHECK_RETURN (R181). -/
  | codeCheckReturn (src : Station) (tag : Nat) (code : GuestCode)
  /-- CODE_ANSWER (R181). -/
  | codeAnswer (src : Station) (tag : Nat) (code : GuestCode) (outcome : CodeOutcome)
  /-- RELAY (R166). -/
  | relay (src : Station) (tag : Nat) (part : RelayPart)
  /-- REASSEMBLY_TIMER_EXPIRY (R166): the reassembly entry. -/
  | reassemblyTimerExpiry (entry : Fin 8)
  /-- OFFICE (R194): part k of n of a night message. -/
  | office (src : Station) (tag : Nat) (msg : NightMsg) (k n : Nat)
  /-- NIGHT_ASSEMBLY_TIMEOUT (R194): the source whose message is in assembly. -/
  | nightAssemblyTimeout (src : Station)
  /-- BLOCK_ACK (R196). -/
  | blockAck (src : Station) (tag : Nat) (ref : BlockRef)
  /-- READ_RECORDS (R206): record-read bank, index, entry count. -/
  | readRecords (src : Station) (tag bank index count : Nat)
  /-- RECORDS (R206). -/
  | records (src : Station) (tag : Nat) (entries : List ReadEntry)
  /-- ERASE_STAGED (R7): an order the night link controller delivers to the item store. -/
  | eraseStaged (tag : Nat) (bank : BankNo)
  /-- BANK_ERASE_COMPLETE (R7). -/
  | bankEraseComplete (bank : BankNo)
  /-- DEPT (R10). -/
  | dept (tag : Nat) (bank : BankNo) (entries : List DeptItem)
  /-- ITEM_APPEND (R11). -/
  | itemAppend (tag : Nat) (bank : BankNo) (items : List AppendItem)
  /-- SEAL (R13). -/
  | sealBank (tag : Nat) (bank : BankNo) (count day minute : Nat)
  /-- SWITCHOVER (R15). -/
  | switchover
  /-- REVIEW_WALK_END (R135). -/
  | reviewWalkEnd
  /-- DAY_ROLL (R189). -/
  | dayRoll
  /-- TILL_FRAME_DISCARDED (R64): the frame as heard. -/
  | tillFrameDiscarded (line : TillNo) (f : RawTillFrame)
  /-- TILL_DATA_PACKET (R157). -/
  | tillDataPacket (line : TillNo) (p : Packet)
  /-- SIGN_ON (R68). -/
  | signOn (line : TillNo) (tag cashier claimed : Nat)
  /-- SIGN_OFF (R69). -/
  | signOff (line : TillNo) (tag : Nat)
  /-- SCAN (R73). -/
  | scan (line : TillNo) (tag code : Nat) (measure : Measure) (claimed : Option Nat)
  /-- KEY (R76): department, unit price, quantity, claimed level. -/
  | key (line : TillNo) (tag dept price : Nat) (quantity : Int) (claimed : Option Nat)
  /-- VOID_LAST (R78). -/
  | voidLast (line : TillNo) (tag : Nat)
  /-- VOID_LINE (R78): the line number. -/
  | voidLine (line : TillNo) (tag number : Nat)
  /-- OVERRIDE (R79): line number, new unit price, claimed level. -/
  | override (line : TillNo) (tag number price claimed : Nat)
  /-- SUBTOTAL (R80). -/
  | subtotal (line : TillNo) (tag : Nat)
  /-- TENDER (R81). -/
  | tender (line : TillNo) (tag : Nat) (method : TenderMethod) (amount : Nat)
  /-- REFUND (R82). -/
  | refund (line : TillNo) (tag : Nat) (claimed : Option Nat)
  /-- CANCEL (R83). -/
  | cancel (line : TillNo) (tag claimed : Nat)
  /-- PARK (R111). -/
  | park (line : TillNo) (tag : Nat)
  /-- RECALL (R112). -/
  | recallTicket (line : TillNo) (tag ticket : Nat)
  /-- ENQUIRE (R77). -/
  | enquire (line : TillNo) (tag code : Nat)
  /-- JOURNAL_GROUP_WRITTEN (R147). -/
  | journalGroupWritten
  /-- JOURNAL_PAGE_ERASE_COMPLETE (R153). -/
  | journalPageEraseComplete
  /-- LABEL_WAKE (R127): the label whose place in the cycle has come. -/
  | labelWake (label : Nat)
  /-- LABEL_ACK (R129). -/
  | labelAck (ack : LabelAck)
  /-- LABEL_NO_ANSWER (R131). -/
  | labelNoAnswer
  /-- LABEL_CYCLE_END (R125). -/
  | labelCycleEnd
  /-- JOIN (R173). -/
  | join (addr : ClientAddr)
  /-- CODE (R179): the characters entered. -/
  | code (addr : ClientAddr) (chars : List Nat)
  /-- GUEST_DATA (R175). -/
  | guestData (addr : ClientAddr) (p : Packet)
  /-- LEAVE (R174). -/
  | leave (addr : ClientAddr)
  /-- GUEST_RATE_WINDOW (R175). -/
  | guestRateWindow
  /-- CODE_CHECK_TIMER_EXPIRY (R181): the client entry. -/
  | codeCheckTimerExpiry (entry : Fin 128)
  /-- ADMISSION_EXPIRY (R183): the client entry. -/
  | admissionExpiry (entry : Fin 128)
  /-- BLOCK_EXPIRY (R184): the client entry. -/
  | blockExpiry (entry : Fin 128)
  /-- CODE_EXPIRY (R178): the code's serial. -/
  | codeExpiry (serial : Nat)
  /-- UPLINK_PACKET (R157). -/
  | uplinkPacket (p : Packet)
  /-- UPLINK_FRAME_END (R168). -/
  | uplinkFrameEnd
  /-- UPLINK_LINK_CHANGE (R167): the ULLINK report and, while up, the rate. -/
  | uplinkLinkChange (up : Bool) (rate : LinkRate)
  /-- GUEST_CREDIT_WINDOW (R169). -/
  | guestCreditWindow
  /-- NIGHT_WINDOW_ENTER (R188). -/
  | nightWindowEnter
  /-- NIGHT_WINDOW_LEAVE (R188). -/
  | nightWindowLeave
  /-- CALL_TIMER_EXPIRY (R191). -/
  | callTimerExpiry
  /-- CALL_HOLD_END (R190). -/
  | callHoldEnd
  /-- SESSION_ACCEPT (R191). -/
  | sessionAccept (t : Time)
  /-- SESSION_END (R192). -/
  | sessionEnd
  /-- HEAD_OFFICE_READ (R195). -/
  | headOfficeRead (target : Station) (tag bank index count : Nat)
  /-- HEAD_OFFICE_BLOCK_ACK (R195). -/
  | headOfficeBlockAck (station : Station) (ref : BlockRef)
  /-- SESSION_DRAINED (R193). -/
  | sessionDrained
  /-- JOURNAL_BLOCK_TIMER_EXPIRY (R198): the block's first sequence and count. -/
  | journalBlockTimerExpiry (first : Seq) (count : Nat)
  /-- ACTIVITY_BLOCK_TIMER_EXPIRY (R199): the block number. -/
  | activityBlockTimerExpiry (number : Nat)
  /-- GUEST_AIR_PORT_MESSAGE_SENT (R171). -/
  | guestAirPortMessageSent
  deriving DecidableEq, Repr

end Sys2Proof
end

