-- ==== Sys2Proof/Config.lean ====
section
/-!
DEFINITION. What the manual leaves open and the model leaves free: constants without a body, of which nothing can be
proved but what their type says. Each is named in the assumption log, and a limit the manual gives is kept by the
operation that reads the constant.
-/

namespace Sys2Proof.Config

open Sys2Proof.Machine

/-- Free: whether a day roll due in the same clock adoption as a switchover is taken first (R205). The argument is the
free-value counter of the state (log 9). -/
opaque dayRollFirst : Nat → Bool

/-- Free: how many OFFICE parts a night message travels as; kept within 1 to 64 where it is read (R194, log 10). -/
opaque officeParts : NightMsg → Nat

/-- Free: the length in bytes of the packet that carries a night message; kept within 20 to 1,500 where it is read
(R157, log 10). -/
opaque nightLength : NightMsg → Nat

/-- Free: how many PARK DATA parts a basket content needs; kept within 1 to 4 where it is read (R115, log 11). -/
opaque parkParts : ParkContent → Nat

/-- Free: how many of a content's lines part k carries, the last part carrying the rest (Table 6-2, log 11). -/
opaque parkCut : ParkContent → Nat → Nat

/-- Free: whether the header words of an ERASING bank still stand at a read of its header entry (R8, R24, log 12). -/
opaque wordsStand : Nat → Bool

/-- Free: the tag of a frame to which the manual gives none, a CODE CHECK of mode RETURN or a BLOCK ACK; taken modulo
256 where it is read, at the free-value counter of the state (R181, R194, log 15). -/
opaque openTag : Nat → Nat

/-- Free: the contents of a packet whose RELAY parts are of packets of different contents, from what the parts so far
gave and what one more brings (R166, log 61). -/
opaque joinedBody : PacketBody → PacketBody → PacketBody

/-- Free: the message whose OFFICE parts are of different messages, likewise (R194, log 62). -/
opaque joinedMsg : NightMsg → NightMsg → NightMsg

end Sys2Proof.Config
end

