-- ==== Sys2Proof/Machine/State.lean ====
section
/-!
DEFINITION. The state of one AW-316, block by block (Table 1), as plain data; the two reason types of a step; and the
state right after reset. INVENTORY.md, "State", names the rule and the reset value of every field.
-/

namespace Sys2Proof.Machine

/-- Faults of a step. It has no constructor: no rule of the manual stops the part, so no command faults. -/
inductive Fault where
  deriving DecidableEq, Repr

/-- Refusals of a step. -/
inductive Refusal where
  /-- Raised by `exec` alone, for a command that has no meaning yet; safe (the model stops). No command of this model
  is refused. -/
  | notModelled (mnemonic : String)
  deriving DecidableEq, Repr

/-! ## Trunk port (Chapter 2) -/

/-- The block that keeps a class C frame refused WAIT or NO-TRUNK (R34): forwarding unit, night link controller,
station control. -/
inductive COwner where
  | forward
  | night
  | control
  deriving DecidableEq, Repr

structure TrunkPort where
  trunk : TrunkState := .listening
  /-- ms left of LISTEN, the hold or the listen; in ACTIVE, ms to the next ANNOUNCE -/
  trunkMs : Nat := 1000
  qA : List Frame := []
  qB : List Frame := []
  qC : List Frame := []
  sending : Option Frame := none
  /-- the class C sit-out in progress -/
  sitOut : Bool := false
  /-- running time of the last garbled transmission remembered -/
  lastGarble : Option Nat := none
  /-- class A frames refused WAIT, kept by their blocks, in order of refusal -/
  keptA : List Frame := []
  /-- the class C frames refused WAIT or NO-TRUNK, in order of refusal -/
  recordC : List Frame := []
  /-- the round in progress at entry to ACTIVE, in which the station takes no part (R35, R36, R39) -/
  roundLeft : Bool := false
  peers : Vector PeerEntry 16 := Vector.replicate 16 {}
  badFrames : Nat := 0
  collisions : Nat := 0
  duplicateEntries : Nat := 0
  guestDropped : Nat := 0
  deriving DecidableEq, Repr

/-! ## Item store (Chapter 1) -/

/-- A header word in the bank: erased, written with a failed check (read as absent, R2), or good. -/
inductive NvWord (α : Type) where
  | erased
  | failed
  | good (a : α)
  deriving DecidableEq, Repr

/-- An erase in flight: the order's tag and the ms left of its 80 (R7). -/
structure EraseJob where
  tag : Nat
  ms : Nat
  deriving DecidableEq, Repr

structure Bank where
  openWord : NvWord Nat := .erased
  sealWord : NvWord SealWord := .erased
  activeWord : NvWord Unit := .erased
  retiredWord : NvWord Unit := .erased
  depts : Tbl (Option DeptEntry) := []
  /-- the complete records, in append order -/
  records : List ItemRecord := []
  /-- the words of an incomplete last record (R4); empty when there is none -/
  tail : List (List Byte) := []
  /-- content an interrupted erase left that is no valid word, entry or record (R22) -/
  residue : Bool := false
  erasing : Option EraseJob := none
  /-- label indexes used, strictly rising; present only while FILLING (R12) -/
  labelUse : Option (List Nat) := none
  lastCode : Option Nat := none
  deriving DecidableEq, Repr

structure ItemStore where
  banks : Vector Bank 2 := Vector.replicate 2 {}
  /-- positions whose ACCESSED flag is set, strictly rising -/
  accessed : List Nat := []
  /-- positions whose ACTIVITY flag is set, strictly rising -/
  activity : List Nat := []
  gen : Nat := 0
  selected : Option BankNo := none
  recovered : Bool := false
  lostSnapshots : Nat := 0
  deriving DecidableEq, Repr

/-! ## Lookup unit (Chapter 3) -/

/-- A valid remote cache entry (Table 3-2). -/
structure CacheEntry where
  code : Nat
  owner : Station
  gen : Nat
  item : ItemRecord
  level : Nat
  deriving DecidableEq, Repr

/-- A cache set: two ways (an invalid one is `none`), and whether the older-way mark names way 1. -/
structure CacheSet where
  way0 : Option CacheEntry := none
  way1 : Option CacheEntry := none
  older1 : Bool := false
  deriving DecidableEq, Repr

inductive QueryState where
  | free
  | try1
  | try2
  deriving DecidableEq, Repr

/-- An outstanding query table entry (Table 3-3) with its sequence number. -/
structure QueryEntry where
  state : QueryState := .free
  code : Nat := 0
  purpose : Purpose := .sale
  tag : Nat := 0
  ms : Nat := 0
  seq : Nat := 0
  deriving DecidableEq, Repr

structure LookupUnit where
  cache : Vector CacheSet 32 := Vector.replicate 32 {}
  queries : Vector QueryEntry 8 := Vector.replicate 8 {}
  deriving DecidableEq, Repr

/-! ## Basket unit (Chapters 4 to 6) -/

structure Basket where
  state : BasketState := .empty
  lines : List Line := []
  promos : List PromoEntry := []
  amounts : Option Amounts := none
  tax : Option (Vector Int 4) := none
  tenders : List Tender := []
  limit : Bool := false
  /-- journal records reserved by this basket -/
  held : Nat := 0
  deriving DecidableEq, Repr

/-- What an outstanding request waits on (Table 4-1); `recovery` is the wait of section 1.7 and section 8.6. -/
inductive Wait where
  | lookup
  | recall
  | close
  | recovery
  deriving DecidableEq, Repr

structure Outstanding where
  tag : Nat
  kind : ReqKind
  wait : Wait
  deriving DecidableEq, Repr

/-- The pending-scan slot; an ENQUIRE records no measure (R77). -/
structure PendingScan where
  code : Nat
  measure : Option Measure
  deriving DecidableEq, Repr

/-- What the CLOSED answer of a close in progress will carry (R84). -/
structure CloseInfo where
  kind : EndKind
  total : Int
  paid : Int
  code : Option GuestCode
  deriving DecidableEq, Repr

/-- A till line record (Table 4-1); the line's enable and ceiling stand in the setup record. -/
structure TillRec where
  session : Option Session := none
  outstanding : Option Outstanding := none
  scan : Option PendingScan := none
  basket : Basket := {}
  closing : Option CloseInfo := none
  deriving DecidableEq, Repr

/-- A park table entry (Table 6-1). -/
structure ParkEntry where
  state : ParkState := .free
  content : Option ParkContent := none
  /-- reservation held -/
  held : Nat := 0
  requester : Option Requester := none
  /-- transfer timer, ms left -/
  ms : Nat := 0
  abandonPending : Bool := false
  deriving DecidableEq, Repr

inductive RecallPhase where
  | idle
  | asking
  | receiving
  | releasing
  deriving DecidableEq, Repr

/-- A recall context (Table 6-3) with its till line's recall sequence. `taken` holds the parts taken, each with its
number and lines. -/
structure RecallCtx where
  phase : RecallPhase := .idle
  ticket : Nat := 0
  owner : Station := 0
  tag : Nat := 0
  parts : Nat := 0
  head : Option ParkHead := none
  taken : List (Nat × List Line) := []
  reserved : Nat := 0
  ms : Nat := 0
  seq : Nat := 0
  deriving DecidableEq, Repr

structure BasketUnit where
  tills : Vector TillRec 8 := Vector.replicate 8 {}
  park : Vector ParkEntry 16 := Vector.replicate 16 {}
  recalls : Vector RecallCtx 8 := Vector.replicate 8 {}
  lostTransfers : Nat := 0
  deriving DecidableEq, Repr

/-! ## Journal unit (Chapter 8) -/

/-- A record slot: erased; a record with its acknowledgement word; a body without a good closing word; or void. -/
inductive JSlot where
  | erased
  | record (r : JRecord) (acked : Bool)
  | incomplete
  | void
  deriving DecidableEq, Repr

/-- Who handed a group and is told when it is written (R147). -/
inductive Holder where
  | till (line : TillNo)
  | park (slot : ParkNo)
  deriving DecidableEq, Repr

/-- A group handed and not yet written. -/
structure Group where
  holder : Holder
  bodies : List JBody
  deriving DecidableEq, Repr

/-- An upload in-flight entry (Table 8-4). -/
structure Block where
  returned : Bool
  first : Seq
  count : Nat
  tries : Nat
  deriving DecidableEq, Repr

/-- A page erase in flight: the page and the ms left of its 20 (R153). -/
structure PageErase where
  page : Nat
  ms : Nat
  deriving DecidableEq, Repr

/-- A RECOVERED record that waits for an erased slot (R155, step 2). -/
structure Owed where
  first : Seq
  found : Nat
  deriving DecidableEq, Repr

/-- Positions are unwrapped: the slot of position p is p mod 65,536, its page that slot's page. -/
structure JournalUnit where
  words : Tbl (Option Seq) := []
  slots : Tbl JSlot := []
  erasing : Option PageErase := none
  /-- position of the first slot of the oldest page that holds a page word -/
  oldest : Nat := 0
  head : Nat := 0
  cend : Nat := 0
  tailPos : Nat := 0
  readPos : Nat := 0
  nextSeq : Seq := 0
  used : Nat := 0
  reserved : Nat := 0
  free : Nat := 65536
  queue : List Group := []
  inflight : List Block := []
  owed : Option Owed := none
  recovered : Bool := false
  deriving DecidableEq, Repr

/-! ## Label radio controller (Chapter 7) -/

/-- A review in progress (R133). `rebuild` is the table build that R140 puts in place of the verdicts. -/
structure Review where
  oldBank : Option BankNo
  newBank : BankNo
  ms : Nat
  rebuild : Bool
  deriving DecidableEq, Repr

/-- An exchange in progress (R126, R127). -/
structure Exchange where
  label : Nat
  display : Bool
  blank : Bool
  gen : Nat
  deriving DecidableEq, Repr

structure LabelRadio where
  labels : Tbl LabelEntry := []
  running : Bool := false
  sweep : Bool := false
  passCount : Nat := 0
  /-- the cycle in progress began in SWEEP, so that it is a pass (R138) -/
  passOn : Bool := false
  review : Option Review := none
  cycle : Nat := 0
  cycleMs : Nat := 0
  slots : Option Nat := none
  period : Option Nat := none
  slotsClamped : Bool := false
  periodClamped : Bool := false
  exchange : Option Exchange := none
  /-- the place of the last wake taken in this cycle -/
  placed : Option Nat := none
  deriving DecidableEq, Repr

/-! ## Forwarding unit (Chapter 9) -/

/-- An OFFICE packet whose remaining parts await room (R165): `next` is the next part to hand. -/
structure OfficePending where
  packet : Packet
  dest : Station
  tag : Nat
  next : Nat
  deriving DecidableEq, Repr

/-- A reassembly entry (R166): `packet` is what the parts so far gave, its length the bytes held so far. -/
structure Reasm where
  src : Station
  tag : Nat
  origin : OriginClass
  n : Nat
  next : Nat
  packet : Packet
  ms : Nat
  deriving DecidableEq, Repr

/-- A packet whose discard is counted (R166): its tag, its part count and the highest of its parts seen. A later part
of the same packet is not counted again. -/
structure RelayMark where
  tag : Nat
  n : Nat
  last : Nat
  deriving DecidableEq, Repr

/-- A packet on the wire of the uplink port, with its class (R168). -/
structure UpFrame where
  origin : OriginClass
  packet : Packet
  deriving DecidableEq, Repr

structure Forwarding where
  setupRoutes : List Route := []
  learned : Vector (Option Net) 16 := Vector.replicate 16 none
  relayNo : Nat := 0
  officePending : List OfficePending := []
  reasm : Vector (Option Reasm) 8 := Vector.replicate 8 none
  /-- by source: the packets whose discard has been counted -/
  relayDropped : Vector (List RelayMark) 16 := Vector.replicate 16 []
  upTill : List Packet := []
  upOffice : List Packet := []
  upGuest : List Packet := []
  upSending : Option UpFrame := none
  credit : Int := 0
  windowMs : Nat := 100
  linkUp : Bool := false
  rate : LinkRate := .mbit10
  droppedTill : Nat := 0
  droppedOffice : Nat := 0
  noCarrier : Nat := 0
  guestDropped : Nat := 0
  deriving DecidableEq, Repr

/-! ## Guest unit (Chapter 10) -/

structure GuestUnit where
  clients : Vector ClientEntry 128 := Vector.replicate 128 {}
  codes : List CodeEntry := []
  serial : Nat := 0
  airSending : Option AirMsg := none
  airQueue : List AirMsg := []
  rateMs : Nat := 100
  notIssued : Nat := 0
  notReturned : Nat := 0
  guestDropped : Nat := 0
  deriving DecidableEq, Repr

/-! ## Night link controller (Chapter 11) -/

/-- A journal block's acknowledgement timer (R198). -/
structure BlockTimer where
  first : Seq
  count : Nat
  ms : Nat
  deriving DecidableEq, Repr

/-- An activity entry (Table 11-4). -/
structure ActivityEntry where
  returned : Bool
  number : Nat
  first : Nat
  last : Nat
  positions : List Nat
  gen : Nat
  tries : Nat
  ms : Nat
  deriving DecidableEq, Repr

/-- A message of the send list (R194): `next` is the next part to hand, of `n`. -/
structure SendEntry where
  msg : NightMsg
  dest : Station
  tag : Nat
  n : Nat
  next : Nat
  deriving DecidableEq, Repr

/-- A message in assembly (R194). -/
structure Assembly where
  msg : NightMsg
  tag : Nat
  n : Nat
  next : Nat
  ms : Nat
  deriving DecidableEq, Repr

structure NightLink where
  session : SessionState := .day
  callMs : Nat := 0
  holdMs : Option Nat := none
  served : Bool := false
  inside : Bool := false
  carrier : Option Station := none
  upload : UploadState := .idle
  blockTimers : List BlockTimer := []
  activity : List ActivityEntry := []
  cursor : Nat := 0
  blockNo : Nat := 0
  msgNo : Nat := 0
  sendList : List SendEntry := []
  assembly : Vector (Option Assembly) 16 := Vector.replicate 16 none
  dropped : Nat := 0
  callsFailed : Nat := 0
  sessionsOpened : Nat := 0
  deriving DecidableEq, Repr

/-! ## Station control (Chapter 12) -/

structure StationControl where
  /-- the setup page: a valid record, or `none` (empty, or its check fails) -/
  page : Option SetupRecord := none
  clock : Option Time := none
  clockState : ClockState := .unset
  clockMs : Nat := 0
  dayMark : Option Int := none
  pendingRecords : List Frame := []
  readsDropped : Nat := 0
  shareClamped : Bool := false
  deriving DecidableEq, Repr

/-! ## The station -/

structure State where
  stn : Station := 0
  now : Nat := 0
  tp : TrunkPort := {}
  is : ItemStore := {}
  lu : LookupUnit := {}
  bu : BasketUnit := {}
  ju : JournalUnit := {}
  lrc : LabelRadio := {}
  fu : Forwarding := {}
  gu : GuestUnit := {}
  nlc : NightLink := {}
  sc : StationControl := {}
  deferred : List Waiting := []
  out : List Output := []
  freeIdx : Nat := 0
  pending : List Instr := []
  deriving DecidableEq, Repr

/-- The part right after power-on reset, with erased price banks, an unwritten journal and an empty setup page: every
field at the default its structure declares (INVENTORY.md, State). -/
def State.reset : State := {}

end Sys2Proof.Machine
end

