-- ==== Sys2Proof/Machine/Ops.lean ====
section
/-!
DEFINITION. The shared operations over the state: sparse tables, flag sets, saturating counters, one modifier for each
block, the outputs, hand-over to the trunk port (R33 to R35), the carrier judgement (R187), and the setup values the
blocks read.
-/

namespace Sys2Proof.Machine

/-! ## Sparse tables -/

/-- The value at an index; `d` is what an unlisted index reads as. -/
def Tbl.get {α : Type} (d : α) : Tbl α → Nat → α
  | [], _ => d
  | (i, v) :: t, k => if i = k then v else Tbl.get d t k

/-- Write a value, keeping the canonical form: the default value removes the entry. -/
def Tbl.put {α : Type} [DecidableEq α] (d : α) : Tbl α → Nat → α → Tbl α
  | [], k, x => if x = d then [] else [(k, x)]
  | (i, v) :: t, k, x =>
    if i < k then (i, v) :: Tbl.put d t k x
    else if i = k then (if x = d then t else (k, x) :: t)
    else (if x = d then (i, v) :: t else (k, x) :: (i, v) :: t)

/-- The canonical form: indexes strictly rising and no default value listed. -/
def Tbl.wf {α : Type} [DecidableEq α] (d : α) : Tbl α → Bool
  | [] => true
  | [(_, v)] => decide (v ≠ d)
  | (i, v) :: (j, w) :: t => decide (v ≠ d) && decide (i < j) && Tbl.wf d ((j, w) :: t)

/-- Change every listed value whose index is in `keys`, and every unlisted one there, by `f`. -/
def Tbl.update {α : Type} [DecidableEq α] (d : α) (f : Nat → α → α) (t : Tbl α) (keys : List Nat) : Tbl α :=
  keys.foldl (fun t k => Tbl.put d t k (f k (Tbl.get d t k))) t

/-- The listed indexes. -/
def Tbl.keys {α : Type} (t : Tbl α) : List Nat := t.map (·.1)

/-! ## Flag sets: strictly rising lists of the positions whose flag is set -/

/-- Set one flag. -/
def Flags.set : List Nat → Nat → List Nat
  | [], k => [k]
  | i :: t, k => if i < k then i :: Flags.set t k else if i = k then i :: t else k :: i :: t

/-- Set every flag of a second set (R15, R18: merge). -/
def Flags.merge (a b : List Nat) : List Nat := b.foldl Flags.set a

/-- Clear every flag of a second set. -/
def Flags.clear (a b : List Nat) : List Nat := a.filter fun i => !b.contains i

/-- The canonical form of a flag set: strictly rising. -/
def Flags.wf : List Nat → Bool
  | [] => true
  | [_] => true
  | i :: j :: t => decide (i < j) && Flags.wf (j :: t)

/-! ## Small helpers -/

/-- Change one place of a vector. -/
def updAt {α : Type} {n : Nat} (v : Vector α n) (i : Fin n) (f : α → α) : Vector α n := v.set i.1 (f v[i]) i.2

/-- Change every place of a vector. -/
def updAll {α β : Type} {n : Nat} (v : Vector α n) (f : Fin n → α → β) : Vector β n := Vector.ofFn fun i => f i v[i]

/-- Every number below n, in order. -/
def fins (n : Nat) : List (Fin n) := List.ofFn id

/-- A counter raised by k; it stays at 4,294,967,295 once there (R46, R170, R206). -/
def bumpBy (c k : Nat) : Nat := min (c + k) u32Max

/-- A counter raised by one. -/
def bump (c : Nat) : Nat := bumpBy c 1

/-- A relay, message or block number raised by one, 255 being followed by 0 (R164, R194, R199). -/
def next256 (n : Nat) : Nat := (n + 1) % 256

/-- A query or recall sequence raised by one, 31 being followed by 0 (R51, R114). -/
def next32 (n : Nat) : Nat := (n + 1) % 32

/-- Whole minutes of a time in ms, rounded up (R173, R179). -/
def minutesUp (ms : Nat) : Nat := (ms + 59999) / 60000

/-! ## Block modifiers -/

def State.onTp (f : TrunkPort → TrunkPort) (s : State) : State := { s with tp := f s.tp }
def State.onIs (f : ItemStore → ItemStore) (s : State) : State := { s with is := f s.is }
def State.onLu (f : LookupUnit → LookupUnit) (s : State) : State := { s with lu := f s.lu }
def State.onBu (f : BasketUnit → BasketUnit) (s : State) : State := { s with bu := f s.bu }
def State.onJu (f : JournalUnit → JournalUnit) (s : State) : State := { s with ju := f s.ju }
def State.onLrc (f : LabelRadio → LabelRadio) (s : State) : State := { s with lrc := f s.lrc }
def State.onFu (f : Forwarding → Forwarding) (s : State) : State := { s with fu := f s.fu }
def State.onGu (f : GuestUnit → GuestUnit) (s : State) : State := { s with gu := f s.gu }
def State.onNlc (f : NightLink → NightLink) (s : State) : State := { s with nlc := f s.nlc }
def State.onSc (f : StationControl → StationControl) (s : State) : State := { s with sc := f s.sc }

/-- Give a message to a line. -/
def State.emit (o : Output) (s : State) : State := { s with out := s.out ++ [o] }

/-- Keep what needs a recovery until it has ended (sections 1.7 and 8.6). -/
def State.defer (w : Waiting) (s : State) : State := { s with deferred := s.deferred ++ [w] }

/-- Use up the free value at the counter. -/
def State.spend (s : State) : State := { s with freeIdx := s.freeIdx + 1 }

/-! ## Values of setup (Table 12-1) -/

/-- SET while the setup page holds a valid record (section 12.1). -/
def State.isSet (s : State) : Bool := s.sc.page.isSome

def State.cabled (s : State) : Bool :=
  match s.sc.page with
  | some r => decide (r.uplink = .yes)
  | none => false

/-- The line takes part: the station is SET and setup enables it. -/
def State.lineEnabled (s : State) (line : TillNo) : Bool :=
  match s.sc.page with
  | some r => r.enabled[line]
  | none => false

/-- The ceiling of a till line (section 4.3); 0 while UNSET, when no request is judged. -/
def State.ceiling (s : State) (line : TillNo) : Nat :=
  match s.sc.page with
  | some r => r.ceiling[line]
  | none => 0

/-- Guest service is on (R171). -/
def State.guestOn (s : State) : Bool :=
  match s.sc.page with
  | some r => decide (r.guestService = .yes)
  | none => false

/-- The link as it counts: a station whose uplink role is NONE counts it as down (R167). -/
def State.linkCounts (s : State) : Bool := s.cabled && s.fu.linkUp

/-- The rate of a tax class, in basis points. -/
def State.taxRates (s : State) : Vector Nat 4 :=
  match s.sc.page with
  | some r => r.rates
  | none => Vector.replicate 4 0

/-- The label channel (R125); 0 while UNSET, when the radio does not run. -/
def State.labelChannel (s : State) : Nat := (s.sc.page.map SetupRecord.channel).getD 0

/-- The cash rounding step; 1 while UNSET, when no tender is judged. -/
def State.cashStep (s : State) : Nat :=
  match s.sc.page with
  | some r => r.cashStep
  | none => 1

/-- The clock's value as a record stamps it: none while UNSET (section 8.3). -/
def State.stamp (s : State) : Option Time := if s.sc.clockState = .unset then none else s.sc.clock

/-! ## Frames (Table 2-2, R28) -/

/-- The class of a kind of frame, but for RELAY, whose class follows the packet's origin class. -/
def FrameKind.frameClass : FrameKind → FrameClass
  | .announce | .priceNotice | .setup | .setupAnswer | .clearSetup => .a
  | .priceQuery | .priceAnswer | .recall | .parkData | .release | .releaseAnswer | .codeCheck | .codeAnswer => .b
  | .relay | .office | .blockAck | .readRecords | .records => .c

/-- The class of a RELAY of an origin class (R28). -/
def OriginClass.relayClass : OriginClass → FrameClass
  | .till => .b
  | .office | .guest => .c

/-- The kind of a payload. -/
def Payload.kind : Payload → FrameKind
  | .announce _ => .announce
  | .priceNotice _ => .priceNotice
  | .setupAnswer _ => .setupAnswer
  | .priceQuery _ _ => .priceQuery
  | .priceAnswer _ _ _ => .priceAnswer
  | .recall _ _ => .recall
  | .parkData _ _ => .parkData
  | .release _ => .release
  | .releaseAnswer _ _ => .releaseAnswer
  | .codeCheck _ _ => .codeCheck
  | .codeAnswer _ _ => .codeAnswer
  | .relay _ => .relay
  | .office _ _ _ => .office
  | .blockAck _ => .blockAck
  | .records _ => .records

/-- The class a frame takes (R28). -/
def Frame.frameClass (f : Frame) : FrameClass :=
  match f.payload with
  | .relay p => p.origin.relayClass
  | p => p.kind.frameClass

def Frame.isAnnounce (f : Frame) : Bool :=
  match f.payload with
  | .announce _ => true
  | _ => false

def Frame.isGuestRelay (f : Frame) : Bool :=
  match f.payload with
  | .relay p => decide (p.origin = .guest)
  | _ => false

/-- A frame to one station. -/
def frameTo (dst : Station) (tag : Nat) (p : Payload) : Frame := { dest := .station dst, tag := tag, payload := p }

/-! ## Hand-over to the trunk port (R33 to R35) -/

/-- What a hand-over gives (section 2.7). -/
inductive HandResult where
  | placed
  | wait
  | busy
  | drop
  | noTrunk
  deriving DecidableEq, Repr

/-- The trunk state is DUPLICATE, in its hold or its listen. -/
def TrunkState.isDuplicate : TrunkState → Bool
  | .dupHold | .dupListen => true
  | .listening | .active => false

/-- Put a frame in the place of the ANNOUNCE of a list. -/
def replaceAnnounce (f : Frame) (q : List Frame) : List Frame := q.map fun g => if g.isAnnounce then f else g

/-- A class A hand-over in LISTEN or ACTIVE (R33, R34, R35): an ANNOUNCE takes the place of an older one that waits in
the queue or is kept by its block; otherwise the frame is placed, or refused WAIT and kept. An older ANNOUNCE that is
being transmitted is still in the queue and is replaced too: the manual does not say whether it waits then (log 42). -/
def TrunkPort.handA (t : TrunkPort) (f : Frame) : HandResult × TrunkPort :=
  if f.isAnnounce && t.qA.any Frame.isAnnounce then (.placed, { t with qA := replaceAnnounce f t.qA })
  else if f.isAnnounce && t.keptA.any Frame.isAnnounce then (.wait, { t with keptA := replaceAnnounce f t.keptA })
  else if t.qA.length < 8 then (.placed, { t with qA := t.qA ++ [f] })
  else (.wait, { t with keptA := t.keptA ++ [f] })

/-- Take a hand-over (R33 to R35). A class A frame refused in DUPLICATE is discarded by its block; a class C refusal
is put on record by the owning block. -/
def TrunkPort.handOver (t : TrunkPort) (f : Frame) : HandResult × TrunkPort :=
  match f.frameClass with
  | .a => if t.trunk.isDuplicate then (.noTrunk, t) else t.handA f
  | .b =>
    if t.trunk = .active then
      if t.qB.length < 16 then (.placed, { t with qB := t.qB ++ [f] }) else (.busy, t)
    else (.noTrunk, t)
  | .c =>
    if t.trunk = .active then
      if t.qC.length < 32 then (.placed, { t with qC := t.qC ++ [f] })
      else if f.isGuestRelay then (.drop, { t with guestDropped := bump t.guestDropped })
      else (.wait, t)
    else (.noTrunk, t)

/-- The result of handing a frame to the trunk port. -/
def State.handResult (s : State) (f : Frame) : HandResult := (s.tp.handOver f).1

/-- The state after handing a frame to the trunk port. -/
def State.handOver (s : State) (f : Frame) : State := s.onTp fun t => (t.handOver f).2

/-- Put a refused class C frame of a block on record (R34). -/
def State.recordC (f : Frame) (s : State) : State := s.onTp fun t => { t with recordC := t.recordC ++ [f] }

/-- The owner of a class C frame that its block keeps when it is refused WAIT or NO-TRUNK (R34). -/
def Frame.owner (f : Frame) : Option COwner :=
  match f.payload with
  | .relay p => if p.origin = .office then some .forward else none
  | .office _ _ _ | .blockAck _ => some .night
  | .records _ => some .control
  | _ => none

/-- The night message part a frame carries. -/
def Frame.nightPart (f : Frame) : Option SendEntry :=
  match f.dest, f.payload with
  | .station d, .office m k n => some { msg := m, dest := d, tag := f.tag, n := n, next := k }
  | .station d, .blockAck (.journal first count) =>
    some { msg := .ackJournal d first count, dest := d, tag := f.tag, n := 1, next := 1 }
  | .station d, .blockAck (.activity number) =>
    some { msg := .ackActivity d number, dest := d, tag := f.tag, n := 1, next := 1 }
  | _, _ => none

/-- Change the first element that a test picks. -/
def onFirst {α : Type} (p : α → Bool) (f : α → α) : List α → List α
  | [] => []
  | x :: l => if p x then f x :: l else x :: onFirst p f l

/-- The packet of a RELAY frame is on the office pending list still; the relay number alone returns after 255. -/
def OfficePending.isOf (f : Frame) (e : OfficePending) : Bool :=
  match f.payload with
  | .relay p => decide (f.dest = .station e.dest) && decide (f.tag = e.tag) && decide (p.packet = e.packet)
  | _ => false

/-- The message of a night frame is on the send list still, at whatever carrier (R200). -/
def SendEntry.isOf (x e : SendEntry) : Bool := decide (e.msg = x.msg) && decide (e.tag = x.tag)

/-- The block of a frame on record has not withdrawn it: its packet, message or RECORDS still waits (R34). -/
def State.keeps (s : State) (f : Frame) : Bool :=
  match f.owner with
  | some .forward => s.fu.officePending.any (OfficePending.isOf f)
  | some .night => f.nightPart.any fun x => s.nlc.sendList.any (SendEntry.isOf x)
  | some .control => s.sc.pendingRecords.contains f
  | none => false

/-- A frame that an owner keeps is on record. -/
def State.onRecord (s : State) (o : COwner) : Bool := s.tp.recordC.any fun f => decide (f.owner = some o) && s.keeps f

/-! ## The carrier judgement (R187) -/

/-- A role flag of a peer entry; a flag that is none is not "yes". -/
def PeerEntry.flag (p : PeerEntry) (f : RoleFlags → Bool) : Bool := (p.flags.map f).getD false

/-- Station n meets the conditions of R187; the own number is judged by setup and the port, not by the table's copy. -/
def State.mayCarry (s : State) (n : Station) : Bool :=
  decide (s.tp.peers[n].state = .present) &&
    (if n = s.stn then s.linkCounts else s.tp.peers[n].flag (·.cabled) && s.tp.peers[n].flag (·.linkUp))

/-- The carrier judged now: the lowest-numbered station that meets the conditions. -/
def State.judge (s : State) : Option Station := (fins 16).find? s.mayCarry

/-- The station judges itself carrier. -/
def State.isCarrier (s : State) : Bool := s.judge == some s.stn

end Sys2Proof.Machine
end

