-- ==== Sys2Proof/Machine/Layout.lean ====
section
/-!
DEFINITION. The byte layouts of section 2.8: the CRC, the trunk frame and its judgement (R27), the till line frame and
its judgement (R64), and the item record as appended, written to words and read back (R4, Table 2-14).
-/

namespace Sys2Proof.Machine

/-! ## Numbers and the check -/

/-- A number read from bytes, most significant byte first. -/
def natOfBytes (bs : List Byte) : Nat := bs.foldl (fun n b => n * 256 + b.toNat) 0

/-- A number written in w bytes, most significant byte first. -/
def bytesOfNat : Nat → Nat → List Byte
  | 0, _ => []
  | w + 1, n => bytesOfNat w (n / 256) ++ [BitVec.ofNat 8 n]

/-- One bit of the CRC register, polynomial x^16 + x^12 + x^5 + 1. -/
def crcBit (c : BitVec 16) : BitVec 16 := if c.msb then (c <<< 1) ^^^ 0x1021#16 else c <<< 1

/-- One byte of the check, most significant bit first (log 14). -/
def crcByte (c : BitVec 16) (b : Byte) : BitVec 16 :=
  crcBit (crcBit (crcBit (crcBit (crcBit (crcBit (crcBit (crcBit (c ^^^ (b.zeroExtend 16 <<< 8)))))))))

/-- The 16-bit CRC, initial value all ones (section 2.8). -/
def crc16 (bs : List Byte) : BitVec 16 := bs.foldl crcByte 0xFFFF#16

/-- The last two bytes hold the CRC of the bytes before them. -/
def checkOk (bs : List Byte) : Bool :=
  natOfBytes (bs.drop (bs.length - 2)) == (crc16 (bs.take (bs.length - 2))).toNat

/-- Byte i of a frame; 0 past its end (never read there: a judgement looks at the length first). -/
def byteAt (bs : List Byte) (i : Nat) : Nat := (bs.getD i 0).toNat

/-! ## Trunk frames (Table 2-12, R27) -/

/-- The kind of a kind code (Table 2-2). -/
def FrameKind.ofCode : Nat → Option FrameKind
  | 1 => some .announce
  | 2 => some .priceNotice
  | 3 => some .setup
  | 4 => some .setupAnswer
  | 5 => some .clearSetup
  | 6 => some .priceQuery
  | 7 => some .priceAnswer
  | 8 => some .recall
  | 9 => some .parkData
  | 10 => some .release
  | 11 => some .releaseAnswer
  | 12 => some .codeCheck
  | 13 => some .codeAnswer
  | 14 => some .relay
  | 15 => some .office
  | 16 => some .blockAck
  | 17 => some .readRecords
  | 18 => some .records
  | _ => none

/-- The class of a class field (Table 2-12). -/
def FrameClass.ofCode : Nat → Option FrameClass
  | 1 => some .a
  | 2 => some .b
  | 3 => some .c
  | _ => none

/-- The class a frame of a kind must have, a RELAY's by the origin class its payload carries (R27, R28). -/
def classOfKind (k : FrameKind) (origin : Option OriginClass) : Option FrameClass :=
  match k with
  | .relay => origin.map OriginClass.relayClass
  | k => some k.frameClass

/-- A good frame: none of the tests of R27 fails. -/
def RawFrame.good (f : RawFrame) : Bool :=
  let bs := f.bytes
  let len := natOfBytes ((bs.drop 4).take 2)
  let dest := byteAt bs 2
  decide (8 ≤ bs.length) && checkOk bs &&
    decide (len ≤ 512) && decide (len + 8 = bs.length) &&
    (decide (dest ≤ 15) || decide (dest = 255)) &&
    (match FrameKind.ofCode (byteAt bs 0) with
     | none => false
     | some k =>
       match FrameClass.ofCode (byteAt bs 1 / 16) with
       | none => false
       | some cls => classOfKind k f.origin == some cls)

/-- The bytes of a frame with its check (Table 2-12). -/
def frameBytes (kind cls src dest tag : Nat) (payload : List Byte) : List Byte :=
  let body := [BitVec.ofNat 8 kind, BitVec.ofNat 8 (cls * 16 + src), BitVec.ofNat 8 dest, BitVec.ofNat 8 tag] ++
    bytesOfNat 2 payload.length ++ payload
  body ++ bytesOfNat 2 (crc16 body).toNat

/-! ## Till line frames (Table 2-13, R64) -/

/-- The frame is a request that the basket unit takes, or a data packet that it hands on (R64). R64 tests the length of
a request against its payload (`lengthOk`) and names no test of a data packet's length field, bytes 3 to 4, where R27 has
one for the trunk. The model does not read that field and takes the last two bytes received for the check, so a data
packet whose field differs from the bytes received counts as taken (DESIGN CHOICE, log 81). -/
def RawTillFrame.taken (f : RawTillFrame) : Bool :=
  let bs := f.bytes
  let kind := byteAt bs 0
  let code := byteAt bs 2
  decide (7 ≤ bs.length) && checkOk bs &&
    (decide (kind = 3) || (decide (kind = 1) && decide (1 ≤ code) && decide (code ≤ 14) && f.lengthOk))

/-! ## The item record as appended (Table 2-14) -/

/-- A word of 24 bytes; bytes not named are 0. -/
def padWord (bs : List Byte) : List Byte := bs ++ List.replicate (24 - bs.length) 0

def byte (n : Nat) : Byte := BitVec.ofNat 8 n

def ItemRecord.hasOffer (r : ItemRecord) : Bool := r.promotion.isSome || r.packSize.isSome
def ItemRecord.hasLabel (r : ItemRecord) : Bool := r.labelIndex.isSome || r.labelClass.isSome

/-- The number of words a record takes: 4, and one for each word present (R4). -/
def ItemRecord.wordCount (r : ItemRecord) : Nat :=
  4 + r.hasOffer.toNat + r.hasLabel.toNat + r.description.isSome.toNat

def ItemRecord.openingWord (r : ItemRecord) : List Byte :=
  padWord (bytesOfNat 6 r.code ++ [byte r.dept, byte r.wordCount,
    byte (r.hasOffer.toNat + 2 * r.hasLabel.toNat + 4 * r.description.isSome.toNat)])

def ItemRecord.classWord (r : ItemRecord) : List Byte :=
  padWord [byte (match r.basis with | .each => 0 | .perKg => 1), byte r.taxClass, byte r.overrideLevel]

def ItemRecord.priceWord (r : ItemRecord) : List Byte := padWord (bytesOfNat 4 r.unitPrice)

def ItemRecord.offerWord (r : ItemRecord) : List Byte :=
  padWord ((match r.promotion with
    | none => [byte 0, byte 0] ++ bytesOfNat 4 0
    | some (.multiBuy n m) => [byte 1, byte n] ++ bytesOfNat 4 m
    | some (.percentOff p) => [byte 2, byte p] ++ bytesOfNat 4 0) ++ bytesOfNat 3 (r.packSize.getD 0))

def ItemRecord.labelWord (r : ItemRecord) : List Byte :=
  padWord (bytesOfNat 2 (r.labelIndex.getD 65535) ++
    [byte (match r.labelClass with | none => 0 | some .fast => 1 | some .slow => 2)])

def ItemRecord.descriptionWord (r : ItemRecord) : List Byte :=
  let d := r.description.getD []
  padWord (byte d.length :: d.map byte)

def ItemRecord.closingWord (r : ItemRecord) : List Byte := padWord (bytesOfNat 6 r.code)

/-- The words of a record, in the order of Table 2-14, the closing word last (R4). -/
def ItemRecord.words (r : ItemRecord) : List (List Byte) :=
  [r.openingWord, r.classWord, r.priceWord] ++
    (if r.hasOffer then [r.offerWord] else []) ++
    (if r.hasLabel then [r.labelWord] else []) ++
    (if r.description.isSome then [r.descriptionWord] else []) ++
    [r.closingWord]

/-- A field of a word: `len` bytes from byte `at`. -/
def fieldAt (w : List Byte) (start len : Nat) : Nat := natOfBytes ((w.drop start).take len)

/-- Take the first word of a list when the record says it is present. -/
def takeWord (present : Bool) (ws : List (List Byte)) : Option (Option (List Byte) × List (List Byte)) :=
  if present then
    match ws with
    | w :: rest => some (some w, rest)
    | [] => none
  else some (none, ws)

def promotionOf (w : List Byte) : Option Promotion :=
  match fieldAt w 0 1 with
  | 1 => some (.multiBuy (fieldAt w 1 1) (fieldAt w 2 4))
  | 2 => some (.percentOff (fieldAt w 1 1))
  | _ => none

def packOf (w : List Byte) : Option Nat := if fieldAt w 6 3 = 0 then none else some (fieldAt w 6 3)

def labelIndexOf (w : List Byte) : Option Nat := if fieldAt w 0 2 = 65535 then none else some (fieldAt w 0 2)

def labelClassOf (w : List Byte) : Option LabelClass :=
  match fieldAt w 2 1 with
  | 1 => some .fast
  | 2 => some .slow
  | _ => none

def descriptionOf (w : List Byte) : List Nat := ((w.drop 1).take (fieldAt w 0 1)).map (·.toNat)

/-- Read a record from its words: `none` where its closing word is missing or names another item code, which is an
incomplete record (R4). -/
def recordOfWords (ws : List (List Byte)) : Option ItemRecord :=
  match ws with
  | opening :: cls :: price :: rest =>
    let present := fieldAt opening 8 1
    match takeWord (present % 2 == 1) rest with
    | none => none
    | some (offer, rest) =>
      match takeWord (present / 2 % 2 == 1) rest with
      | none => none
      | some (label, rest) =>
        match takeWord (present / 4 % 2 == 1) rest with
        | none => none
        | some (desc, rest) =>
          match rest with
          | [closing] =>
            if fieldAt closing 0 6 = fieldAt opening 0 6 then
              some {
                code := fieldAt opening 0 6
                dept := fieldAt opening 6 1
                unitPrice := fieldAt price 0 4
                basis := if fieldAt cls 0 1 = 1 then .perKg else .each
                taxClass := fieldAt cls 1 1
                overrideLevel := fieldAt cls 2 1
                promotion := offer.bind promotionOf
                packSize := offer.bind packOf
                labelIndex := label.bind labelIndexOf
                labelClass := label.bind labelClassOf
                description := desc.map descriptionOf }
            else none
          | _ => none
  | _ => none

end Sys2Proof.Machine
end

