-- ==== Sys2Proof/Machine/Operands.lean ====
section
/-!
DEFINITION. The checks of operands: record and department fields (R3, R10), the field checks of till requests (R67),
tickets (R112), levels (R70), the setup record (Table 12-1, R202), and addresses against prefixes (section 9.1).
-/

namespace Sys2Proof.Machine

/-! ## Orders (R3, R10) -/

def promotionBad (basis : Basis) : Promotion → Bool
  | .multiBuy n m => decide (basis = .perKg) || decide (n < 2) || decide (9 < n) || decide (m < 1) || decide (9999999 < m)
  | .percentOff p => decide (p < 1) || decide (90 < p)

/-- BAD-RECORD: a field of the item record lies outside Table 1-2 (R3). -/
def ItemRecord.bad (r : ItemRecord) : Bool :=
  decide (r.code < 1) || decide (9999999999999 < r.code) || decide (99 < r.dept) || decide (9999999 < r.unitPrice) ||
    decide (3 < r.taxClass) || decide (3 < r.overrideLevel) ||
    r.promotion.any (promotionBad r.basis) ||
    r.packSize.any (fun p => decide (r.basis = .perKg) || decide (p < 1) || decide (99999 < p)) ||
    r.labelIndex.any (fun i => decide (4095 < i)) ||
    r.description.any (fun d => decide (20 < d.length) || d.any (fun c => decide (c < 32) || decide (126 < c)))

/-- BAD-RECORD of a record of an ITEM APPEND: an enumerated field, or any other, lies outside Table 1-2 (R3). -/
def AppendItem.bad (r : AppendItem) : Bool := !r.basisOk || !r.promotionOk || !r.classOk || r.toItemRecord.bad

/-- BAD-RECORD: a field of the department entry is out of range (R5, R10). -/
def DeptItem.bad (d : DeptItem) : Bool :=
  decide (99 < d.dept) || decide (3 < d.entry.overrideLevel) || d.entry.openPrice.any (fun l => decide (3 < l)) ||
    decide (3 < d.entry.taxClass)

/-! ## Till requests (R67, R70) -/

/-- The measure of a SCAN lies in its range (Table 4-5). -/
def Measure.inRange : Measure → Bool
  | .quantity q => decide (-99 ≤ q) && decide (q ≤ 99) && decide (q ≠ 0)
  | .weight g => decide (-30000 ≤ g) && decide (g ≤ 30000) && decide (g ≠ 0)

/-- The measure's value. -/
def Measure.value : Measure → Int
  | .quantity q => q
  | .weight g => g

/-- The measure is one of an item of this basis (R74). -/
def Measure.fits : Measure → Basis → Bool
  | .quantity _, .each => true
  | .weight _, .perKg => true
  | .quantity _, .perKg => false
  | .weight _, .each => false

/-- A ticket's station part and slot part (Table 4). -/
def ticketOf (n : Station) (j : ParkNo) : Nat := n.val * 100 + j.val

/-- The station and slot a ticket names; `none` if it is malformed (R67, R112). The manual gives the ticket of a request
no layout; it is taken as a number, so that one of fewer than four digits cannot be asked (DESIGN CHOICE, log 53). -/
def readTicket (t : Nat) : Option (Station × ParkNo) :=
  if h : t / 100 ≤ 15 ∧ t % 100 ≤ 15 then some (⟨t / 100, by omega⟩, ⟨t % 100, by omega⟩) else none

/-- One check of a request: the refusal if it fails. -/
def refuseIf (b : Bool) (r : Refused) : Option Refused := if b then some r else none

/-- The first check that fails (R66, R67). -/
def firstRefusal (cs : List (Option Refused)) : Option Refused := cs.findSome? id

/-- The field checks of one field each (Table 4-5). -/
def checkCashier (c : Nat) : Option Refused := refuseIf (decide (c < 1) || decide (9999 < c)) .badQty
def checkClaimed (l : Option Nat) : Option Refused := refuseIf (l.any fun l => decide (3 < l)) .level
def checkItemCode (c : Nat) : Option Refused := refuseIf (decide (9999999999999 < c)) .unknownItem
def checkMeasure (m : Measure) : Option Refused := refuseIf (!m.inRange) .badQty
def checkDept (d : Nat) : Option Refused := refuseIf (decide (99 < d)) .unknownItem
def checkPrice (p : Nat) : Option Refused := refuseIf (decide (9999999 < p)) .badPrice
def checkAmount (a : Nat) : Option Refused := refuseIf (decide (a < 1) || decide (999999999 < a)) .badPrice
def checkLineNumber (count n : Nat) : Option Refused := refuseIf (decide (n < 1) || decide (count < n)) .state
def checkTicket (t : Nat) : Option Refused := refuseIf (readTicket t).isNone .noTicket

/-- The basket states in which a request is taken (Table 4-2); SIGN ON is judged by the session instead. -/
def ReqKind.takenIn : ReqKind → BasketState → Bool
  | .signOn, _ => true
  | .signOff, b => decide (b = .empty)
  | .scan, b | .key, b => decide (b = .empty) || decide (b = .opened) || decide (b = .subtotal)
  | .voidLast, b | .voidLine, b | .override, b | .refund, b | .park, b | .cancel, b =>
    decide (b = .opened) || decide (b = .subtotal)
  | .subtotal, b | .tender, b => decide (b = .opened) || decide (b = .subtotal) || decide (b = .tendering)
  | .recall, b => decide (b = .empty)
  | .enquire, b => decide (b ≠ .recalling)

/-- The effective level of a request (R70): the numerically larger of the claimed level, or else of the session level,
and the line's ceiling. -/
def effectiveLevel (session : Option Session) (ceiling : Nat) (claimed : Option Nat) : Nat :=
  match claimed with
  | some l => max l ceiling
  | none => max ((session.map Session.level).getD ceiling) ceiling

/-! ## Setup (Table 12-1, R202) -/

def Net.bad (n : Net) : Bool := decide (32 < n.len)

/-- An extra route with a prefix out of range, or with no next hop of Table 9-1. -/
def ExtraRoute.bad : ExtraRoute → Bool
  | .route r => r.net.bad
  | .badHop _ => true

/-- The route table entry of an extra route. -/
def ExtraRoute.entry : ExtraRoute → Option Route
  | .route r => some r
  | .badHop _ => none

def SetupRecord.rangeErrors (r : SetupRecord) : List (Bool × SetupField) :=
  [ (decide (65535 < r.store), .store),
    (decide (r.zone < 1) || decide (63 < r.zone), .zone),
    (decide (r.uplink = .outOfRange), .uplink),
    ((fins 8).any (fun i => decide (3 < r.ceiling[i])), .ceiling),
    ((fins 4).any (fun i => decide (2500 < r.rates[i])), .rates),
    (!(r.cashStep == 1 || r.cashStep == 5 || r.cashStep == 10), .cashStep),
    (decide (15 < r.channel), .channel),
    (decide (r.guestService = .outOfRange), .guestService),
    (decide (999999999 < r.threshold), .threshold),
    (decide (1439 < r.winStart) || decide (1439 < r.winEnd), .window),
    (r.tillNet.bad, .tillNet),
    (r.guestNet.bad, .guestNet),
    (r.officeNet.bad, .officeNet),
    (decide (4 < r.extra.length) || r.extra.any ExtraRoute.bad, .extra),
    (r.now.any (fun t => decide (u32Max < t.day) || decide (86399 < t.sec)), .now) ]

/-- The first field out of range, in the order of Table 12-1; `none` if the record passes. -/
def SetupRecord.badField (r : SetupRecord) : Option SetupField := (r.rangeErrors.find? (·.1)).map (·.2)

/-- The S the label radio uses (R125). -/
def clampSlots (n : Nat) : Nat :=
  if n ≤ 512 then 512 else if n ≤ 1024 then 1024 else if n ≤ 2048 then 2048 else 4096

/-- The slow period the label radio uses (R125). -/
def clampPeriod (n : Nat) : Nat := if n < 2 then 2 else if 16 < n then 16 else n

/-- The guest share the uplink port uses (Table 12-1). -/
def clampShare (n : Nat) : Nat := if 50 < n then 50 else n

/-! ## Addresses (section 9.1) -/

/-- A prefix covers an address whose first bits, as many as its length, equal those of the prefix. -/
def Net.covers (n : Net) (a : NetAddr) : Bool := a >>> (32 - n.len) == n.addr >>> (32 - n.len)

/-- The first address of a prefix. -/
def Net.start (n : Net) : NetAddr := (n.addr >>> (32 - n.len)) <<< (32 - n.len)

/-- A packet's length is one of a packet (R157). -/
def Packet.lengthOk (p : Packet) : Bool := decide (20 ≤ p.len) && decide (p.len ≤ 1500)

end Sys2Proof.Machine
end

