-- ==== Sys2Proof/Machine/Arith.lean ====
section
/-!
DEFINITION. Basket arithmetic (Chapter 5), on exact integers, stage by stage: extension, line discount, multi-buy
promotions, class gross and total, tax content, cash due, tenders; and the records a close writes (R103 to R105).
-/

namespace Sys2Proof.Machine

/-- Rounded division: to the nearest, a tie away from zero (R89). -/
def roundDiv (n : Int) (d : Nat) : Int :=
  if 0 ≤ n then ((2 * n.natAbs + d) / (2 * d) : Nat) else -((2 * n.natAbs + d) / (2 * d) : Nat)

/-- A value clamped to plus and minus a limit. -/
def clampTo (lim x : Int) : Int := if lim < x then lim else if x < -lim then -lim else x

/-! ## Stages 1 to 3: one line (R90 to R93) -/

/-- The extended amount before its clamp (R91). -/
def rawExtended (basis : Basis) (price : Nat) (m : Measure) : Int :=
  match basis with
  | .each => price * m.value
  | .perKg => roundDiv (price * m.value) 1000

/-- The line discount on an extended amount (R93). -/
def lineDiscount (promotion : Option Promotion) (overridden : Bool) (extended : Int) : Int :=
  match promotion with
  | some (.percentOff p) => if overridden then 0 else roundDiv (extended * p) 100
  | some (.multiBuy _ _) | none => 0

/-- Work a line through stages 1 to 3. -/
def Line.work (l : Line) : Line :=
  let raw := rawExtended l.basis l.unitPrice l.measure
  let ext := clampTo 99999999 raw
  let disc := lineDiscount l.promotion l.overridden ext
  { l with extended := ext, discount := disc, net := ext - disc, limit := decide (ext ≠ raw) }

/-! ## Stage 4: multi-buy promotions (R94 to R96) -/

/-- A multi-buy key: item code and owner generation (R94). -/
structure PromoKey where
  code : Nat
  gen : Nat
  deriving DecidableEq, Repr

/-- The key a line forms: a SCAN line of basis EACH whose record carries a multi-buy promotion. -/
def Line.promoKey (l : Line) : Option PromoKey :=
  match l.subject, l.basis, l.promotion with
  | .item code, .each, some (.multiBuy _ _) => some { code := code, gen := l.ownerGen }
  | _, _, _ => none

/-- A counted line of a key (R94). -/
def Line.counts (k : PromoKey) (l : Line) : Bool :=
  decide (l.promoKey = some k) && !l.voided && !l.overridden && !l.promoSkipped

/-- N, M, P and tax class a line gives an entry. -/
structure PromoTerms where
  n : Nat
  m : Nat
  price : Nat
  taxClass : Nat
  deriving DecidableEq, Repr

def Line.terms (l : Line) : PromoTerms :=
  match l.promotion with
  | some (.multiBuy n m) => { n := n, m := m, price := l.unitPrice, taxClass := l.taxClass }
  | _ => { n := 0, m := 0, price := l.unitPrice, taxClass := l.taxClass }

def PromoEntry.terms (e : PromoEntry) : PromoTerms := { n := e.n, m := e.m, price := e.price, taxClass := e.taxClass }

def PromoEntry.hasKey (k : PromoKey) (e : PromoEntry) : Bool := decide (e.code = k.code) && decide (e.gen = k.gen)

/-- The count C of a key: the sum of its counted quantities, raised to 0 (R95). -/
def countOf (lines : List Line) (k : PromoKey) : Nat :=
  ((lines.filter fun l : Line => l.counts k).map fun l : Line => l.measure.value).sum.toNat

/-- The saving per group: N x P - M when that is above 0, and 0 otherwise (R95). -/
def PromoTerms.saving (t : PromoTerms) : Nat := t.n * t.price - t.m

/-- An entry worked out from its key's lines (R95). -/
def PromoEntry.work (lines : List Line) (e : PromoEntry) : PromoEntry :=
  let c := countOf lines { code := e.code, gen := e.gen }
  { e with count := c, groups := c / e.n, discount := min (c / e.n * e.terms.saving) 99999999 }

/-- The working of an entry clamps its discount (R95). -/
def PromoEntry.clamped (lines : List Line) (e : PromoEntry) : Bool :=
  decide (99999999 < countOf lines { code := e.code, gen := e.gen } / e.n * e.terms.saving)

/-- Work out the entry of a key again; an entry whose count is 0 is removed (R96). -/
def Basket.workKey (b : Basket) (k : PromoKey) : Basket :=
  { b with
    promos := (b.promos.map fun e => if e.hasKey k then e.work b.lines else e).filter fun e =>
      !(e.hasKey k && decide (e.count = 0))
    limit := b.limit || b.promos.any fun e => e.hasKey k && e.clamped b.lines }

/-- Flag lines PROMO-SKIPPED. -/
def Basket.skipLines (b : Basket) (p : Line → Bool) : Basket :=
  { b with lines := b.lines.map fun l => if p l then { l with promoSkipped := true } else l }

/-- Create the entry of a key with a line's terms; counted lines of other terms are flagged PROMO-SKIPPED (R94, R96).
The order of the table's entries is not given: a new entry goes to the end, and a removed one leaves no gap (log 44). -/
def Basket.createEntry (b : Basket) (k : PromoKey) (t : PromoTerms) : Basket :=
  let b := b.skipLines fun l => l.counts k && decide (l.terms ≠ t)
  let e : PromoEntry :=
    { code := k.code, gen := k.gen, n := t.n, m := t.m, price := t.price, taxClass := t.taxClass,
      count := 0, groups := 0, discount := 0 }
  let b : Basket := { b with promos := b.promos ++ [e] }
  b.workKey k

/-- The promotion table after line `l`, already in the basket, was added (R94, R96). -/
def Basket.promoAdded (b : Basket) (l : Line) : Basket :=
  match l.promoKey with
  | none => b
  | some k =>
    match b.promos.find? (PromoEntry.hasKey k) with
    | some e => (if l.terms ≠ e.terms then b.skipLines fun x => decide (x.number = l.number) else b).workKey k
    | none =>
      if countOf b.lines k = 0 then b
      else if 16 ≤ b.promos.length then b.skipLines fun x => decide (x.number = l.number)
      else b.createEntry k l.terms

/-- The promotion table after a counted line of a key was voided or overridden (R96). -/
def Basket.promoDropped (b : Basket) (k : PromoKey) : Basket :=
  if b.promos.any (PromoEntry.hasKey k) then b.workKey k
  else if countOf b.lines k = 0 then b
  else if 16 ≤ b.promos.length then b.skipLines (Line.counts k)
  else
    match b.lines.find? (Line.counts k) with
    | some l => b.createEntry k l.terms
    | none => b

/-! ## Stage 5: class gross and total (R97) -/

/-- The exact class gross of a class, before its clamp. -/
def rawGross (lines : List Line) (promos : List PromoEntry) (k : Nat) : Int :=
  ((lines.filter fun l : Line => !l.voided && decide (l.taxClass = k)).map fun l : Line => l.net).sum -
    (((promos.filter fun e : PromoEntry => decide (e.taxClass = k)).map fun e : PromoEntry => e.discount).sum : Nat)

/-- The four class grosses, each clamped. -/
def grossOf (lines : List Line) (promos : List PromoEntry) : Vector Int 4 :=
  Vector.ofFn fun k => clampTo 999999999 (rawGross lines promos k.val)

/-- The sum of four class amounts. -/
def sum4 (v : Vector Int 4) : Int := v[0] + v[1] + v[2] + v[3]

/-- Class grosses and total of lines and promotions. -/
def amountsOf (lines : List Line) (promos : List PromoEntry) : Amounts :=
  let g := grossOf lines promos
  { gross := g, total := clampTo 999999999 (sum4 g) }

/-- A clamp of stage 5 changes a value (R97). -/
def stage5Clamps (lines : List Line) (promos : List PromoEntry) : Bool :=
  let g := grossOf lines promos
  (fins 4).any (fun k => decide (g[k] ≠ rawGross lines promos k.val)) ||
    decide (clampTo 999999999 (sum4 g) ≠ sum4 g)

/-- Work stage 5 over the basket. -/
def Basket.stage5 (b : Basket) : Basket :=
  { b with
    amounts := some (amountsOf b.lines b.promos), limit := b.limit || stage5Clamps b.lines b.promos }

/-- The basket total; 0 for a basket without amounts. -/
def Basket.total (b : Basket) : Int := (b.amounts.map Amounts.total).getD 0

def Basket.gross (b : Basket) : Vector Int 4 := (b.amounts.map Amounts.gross).getD (Vector.replicate 4 0)

/-! ## Changes of lines (R72, R78, R79, R88, R92) -/

/-- A change of lines ends: stage 5, no tax content (R88), and the basket OPEN (Table 4-7). -/
def Basket.changed (b : Basket) : Basket := { b.stage5 with tax := none, state := .opened }

/-- Add a line, worked through every stage (R72, R88). -/
def Basket.addLine (b : Basket) (l : Line) : Basket :=
  let l := l.work
  ({ b with lines := b.lines ++ [l], limit := b.limit || l.limit }.promoAdded l).changed

def Basket.line (b : Basket) (n : Nat) : Option Line := b.lines.find? fun l => l.number = n

def Basket.setLine (b : Basket) (n : Nat) (x : Line) : Basket :=
  { b with lines := b.lines.map fun l => if l.number = n then x else l }

/-- Void a line; it keeps its amounts (R78, R92). -/
def Basket.voidLine (b : Basket) (l : Line) : Basket :=
  let b' := b.setLine l.number { l with voided := true }
  (match l.promoKey with
   | some k => if l.counts k then b'.promoDropped k else b'
   | none => b').changed

/-- Override a line's price (R79, R92). -/
def Basket.overrideLine (b : Basket) (l : Line) (price level : Nat) : Basket :=
  let x : Line := { l with
    priceBefore := some l.unitPrice, unitPrice := price, overridden := true
    overrides := l.overrides ++ [{ oldPrice := l.unitPrice, newPrice := price, level := level }] }
  let x := x.work
  let b' := { b.setLine l.number x with limit := b.limit || x.limit }
  (match l.promoKey with
   | some k => if l.counts k then b'.promoDropped k else b'
   | none => b').changed

/-! ## Stages 6 to 8 (R99 to R102) -/

/-- Tax content of a gross at a rate (R99). -/
def taxOf (gross : Int) (rate : Nat) : Int := roundDiv (gross * rate) (10000 + rate)

/-- The tax content of the four classes (R99). -/
def taxContent (gross : Vector Int 4) (rates : Vector Nat 4) : Vector Int 4 := Vector.ofFn fun k => taxOf gross[k] rates[k]

/-- The remaining amount (R100). -/
def Basket.remaining (b : Basket) : Int :=
  if b.total ≤ 0 then b.total else b.total - (b.tenders.map fun t => t.applied).sum

/-- The cash due on a remaining amount at a cash step (R100). -/
def cashDueOf (remaining : Int) (step : Nat) : Int := roundDiv remaining step * step

/-- The cash due of a basket; 0 when its total is 0 or below (R100). -/
def Basket.cashDue (b : Basket) (step : Nat) : Int := if b.total ≤ 0 then 0 else cashDueOf b.remaining step

/-- What a tender of amount t against the remaining amount does: the amount applied, the change, the rounding
difference, and whether it closes the basket (R101, R102). -/
structure TenderPlan where
  applied : Int
  change : Int
  rounding : Int
  closes : Bool
  deriving DecidableEq, Repr

def planTender (method : TenderMethod) (t remaining : Int) (step : Nat) : TenderPlan :=
  match method with
  | .card | .voucher => { applied := t, change := 0, rounding := 0, closes := decide (remaining - t ≤ 0) }
  | .cash =>
    let c := cashDueOf remaining step
    if t < c ∧ t < remaining then { applied := t, change := 0, rounding := 0, closes := false }
    else if c ≤ t then { applied := remaining, change := t - c, rounding := c - remaining, closes := true }
    else { applied := remaining, change := 0, rounding := t - remaining, closes := true }

/-! ## Park and recall (R107) -/

/-- The basket installed at a recall: lines and promotion table unchanged, stage 5 worked, no tax content. -/
def installed (c : ParkContent) (held : Nat) : Basket :=
  { ({ lines := c.lines, promos := c.promos, limit := c.limit, held := held } : Basket).stage5 with state := .opened }

/-! ## The records of a close (R84, R103 to R105, R146) -/

/-- A line's records: LINE or VOID, then its OVERRIDE records in the order taken. -/
def Line.bodies (l : Line) : List JBody :=
  (if l.voided then .voidLine l.toLineBody else .line l.toLineBody) ::
    l.overrides.map fun o => .override l.number o.oldPrice o.newPrice o.level

def lineBodies (ls : List Line) : List JBody := ls.flatMap Line.bodies

/-- The number of records a basket's group takes: lines, overrides and the group end (R111, R146). -/
def recordsOf (ls : List Line) : Nat := (lineBodies ls).length + 1

end Sys2Proof.Machine
end

