-- ==== Sys2Proof/Machine/Items.lean ====
section
/-!
DEFINITION. The item store (Chapter 1): bank states, orders, search, switchover, item flags, power loss and recovery,
and the record reads of banks 0x00 to 0x03, each a function of the item store alone.
-/

namespace Sys2Proof.Machine

/-! ## Bank state (R1, R2, R22) -/

/-- A header word as it is read: a word whose check fails is absent (R2). -/
def NvWord.read {α : Type} : NvWord α → Option α
  | .good a => some a
  | .erased | .failed => none

/-- Something stands behind the header words: an entry, a record word or remains. -/
def Bank.hasContent (b : Bank) : Bool := !b.depts.isEmpty || !b.records.isEmpty || !b.tail.isEmpty || b.residue

/-- All content erased: no header word, entry, record word or remains. -/
def Bank.blank (b : Bank) : Bool :=
  decide (b.openWord = .erased) && decide (b.sealWord = .erased) && decide (b.activeWord = .erased) &&
    decide (b.retiredWord = .erased) && !b.hasContent

/-- The bank's state (Table 1-1); header words that form no unbroken run from OPEN are TORN (R2). -/
def Bank.state (b : Bank) : BankState :=
  if b.erasing.isSome then .erasing
  else
    match b.openWord.read, b.sealWord.read, b.activeWord.read, b.retiredWord.read with
    | none, none, none, none => if b.blank then .erased else .torn
    | some _, none, none, none => if b.tail.isEmpty then .filling else .torn
    | some _, some _, none, none => .sealed
    | some _, some _, some _, none => .active
    | some _, some _, some _, some _ => .retired
    | _, _, _, _ => .torn

/-- The bank's record count: its complete records; an ERASING bank shows none (R8, R24). -/
def Bank.count (b : Bank) : Nat := if b.erasing.isSome then 0 else b.records.length

/-- A department's entry, if it is written (R5). -/
def Bank.deptEntry (b : Bank) (d : Nat) : Option DeptEntry := Tbl.get none b.depts d

def otherBank (b : BankNo) : BankNo := if b = 0 then 1 else 0

def ItemStore.bank (i : ItemStore) (b : BankNo) : Bank := i.banks[b]

def ItemStore.setBank (i : ItemStore) (b : BankNo) (x : Bank) : ItemStore := { i with banks := updAt i.banks b fun _ => x }

/-- The bank selected for search and record bank 0x00. -/
def ItemStore.activeBank (i : ItemStore) : Option Bank := i.selected.map i.bank

/-- A bank is TORN (R1, R207). -/
def ItemStore.anyTorn (i : ItemStore) : Bool := (fins 2).any fun b => decide ((i.bank b).state = .torn)

/-! ## Search (R5, R17, R19) -/

/-- What a local search answers (R19). -/
structure Found where
  item : ItemRecord
  position : Nat
  gen : Nat
  dept : Option DeptEntry
  level : Nat
  deriving DecidableEq, Repr

/-- The folded required override level: the more privileged of the department's and the item's (R19). -/
def foldLevel (dept : Option DeptEntry) (r : ItemRecord) : Nat :=
  match dept with
  | some d => min d.overrideLevel r.overrideLevel
  | none => r.overrideLevel

/-- The record of an item code with its position; codes ascend in a bank in force, so there is one or none (R11). -/
def findRecord (rs : List ItemRecord) (code : Nat) : Option (Nat × ItemRecord) :=
  (rs.zipIdx.find? fun e => e.1.code = code).map fun e => (e.2, e.1)

/-- Local search (R19). -/
def ItemStore.search (i : ItemStore) (code : Nat) : Option Found :=
  if code = 0 then none
  else
    match i.activeBank with
    | none => none
    | some b =>
      (findRecord b.records code).map fun e =>
        { item := e.2, position := e.1, gen := i.gen, dept := b.deptEntry e.2.dept,
          level := foldLevel (b.deptEntry e.2.dept) e.2 }

/-- The ACCESSED flag is set by a search for a sale that finds the record (R17). -/
def ItemStore.access (i : ItemStore) (code : Nat) (purpose : Purpose) : ItemStore :=
  match purpose, i.search code with
  | .sale, some f => { i with accessed := Flags.set i.accessed f.position }
  | _, _ => i

/-- The department entry of the active bank (R5). -/
def ItemStore.deptEntry (i : ItemStore) (d : Nat) : Option DeptEntry := i.activeBank.bind fun b => b.deptEntry d

/-! ## Orders (R6 to R13) -/

/-- The bank-level checks, in the order BUSY, IN-FORCE, TORN, STATE (R6, R7, R10, R11, R13). -/
def bankCheck (st : BankState) (o : Order) (review : Bool) : Option OrderOutcome :=
  match st, o with
  | .erasing, _ => some .busy
  | .retired, .eraseStaged => if review then some .busy else none
  | .active, _ => some .inForce
  | .torn, .eraseStaged => none
  | .torn, _ => some .torn
  | _, .eraseStaged => none
  | .sealed, _ => some .state
  | .retired, _ => some .state
  | .erased, .seal _ _ _ => some .state
  | .erased, _ => none
  | .filling, _ => none

/-- The intended generation of a bank opened now (R2). -/
def intendedGen (gen : Nat) : Nat := if gen = u32Max then 0 else gen + 1

/-- The bank is opened before its first entry or record is written (R9). -/
def Bank.opened (b : Bank) (gen : Nat) : Bank :=
  if b.state = .erased then
    { b with openWord := .good (intendedGen gen), labelUse := some [], lastCode := none }
  else b

/-- The entries of a DEPT order, in the order given, up to the first refused one (R10). -/
def Bank.runDept (gen : Nat) : Bank → List DeptItem → Nat → Bank × Nat × OrderOutcome
  | b, [], n => (b, n, .done)
  | b, e :: es, n =>
    if e.bad then (b, n, .badRecord)
    else if (b.deptEntry e.dept).isSome then (b, n, .deptSet)
    else
      let b := b.opened gen
      { b with depts := Tbl.put none b.depts e.dept (some e.entry) }.runDept gen es (n + 1)

/-- Why a record is refused, the first failing check of BAD-RECORD, FULL, OUT-OF-ORDER, NO-DEPT, LABEL-TAKEN (R11). -/
def Bank.refuses (b : Bank) (r : AppendItem) : Option OrderOutcome :=
  if r.bad then some .badRecord
  else if 8192 ≤ b.records.length then some .full
  else if b.lastCode.any fun c => decide (r.code ≤ c) then some .outOfOrder
  else if (b.deptEntry r.dept).isNone then some .noDept
  else if r.labelIndex.any fun l => (b.labelUse.getD []).contains l then some .labelTaken
  else none

/-- Append one record whole (R11). -/
def Bank.append (gen : Nat) (b : Bank) (r : AppendItem) : Bank :=
  let b := b.opened gen
  { b with
    records := b.records ++ [r.toItemRecord]
    lastCode := some r.code
    labelUse := b.labelUse.map fun u => match r.labelIndex with | some l => Flags.set u l | none => u }

/-- The records of an ITEM APPEND, in block order, up to the first refused one (R11). -/
def Bank.runAppend (gen : Nat) : Bank → List AppendItem → Nat → Bank × Nat × OrderOutcome
  | b, [], n => (b, n, .done)
  | b, r :: rs, n =>
    match b.refuses r with
    | some o => (b, n, o)
    | none => (b.append gen r).runAppend gen rs (n + 1)

/-- SEAL's own checks, in their order (R13). -/
def ItemStore.sealCheck (i : ItemStore) (b : BankNo) (count minute : Nat) : Option OrderOutcome :=
  if (i.bank (otherBank b)).state = .sealed then some .state
  else if 1439 < minute then some .badRecord
  else if count ≠ (i.bank b).records.length then some .countMismatch
  else if i.gen = u32Max then some .exhausted
  else if (i.bank b).openWord.read ≠ some (i.gen + 1) then some .superseded
  else none

/-- Take an order that names bank b (R6): the result, but for an accepted ERASE STAGED, whose result follows at the
erase's end (R7), and the item store after it. -/
def ItemStore.takeOrder (i : ItemStore) (review : Bool) (tag : Nat) (b : BankNo) (o : Order) :
    Option OrderResult × ItemStore :=
  let bank := i.bank b
  match bankCheck bank.state o review with
  | some r => (some { bank := b, outcome := r, written := 0, count := bank.count }, i)
  | none =>
    match o with
    | .eraseStaged =>
      (none, i.setBank b { bank with erasing := some { tag := tag, ms := 80 }, labelUse := none, lastCode := none })
    | .dept es =>
      let r := bank.runDept i.gen es 0
      (some { bank := b, outcome := r.2.2, written := r.2.1, count := r.1.count }, i.setBank b r.1)
    | .itemAppend rs =>
      let r := bank.runAppend i.gen rs 0
      (some { bank := b, outcome := r.2.2, written := r.2.1, count := r.1.count }, i.setBank b r.1)
    | .seal count day minute =>
      match i.sealCheck b count minute with
      | some r => (some { bank := b, outcome := r, written := 0, count := bank.count }, i)
      | none =>
        (some { bank := b, outcome := .done, written := 0, count := bank.count, sealGen := some (i.gen + 1) },
          i.setBank b { bank with
            sealWord := .good { count := count, gen := i.gen + 1, day := day, minute := minute }
            labelUse := none, lastCode := none })

/-- A bank's erase completes: it is ERASED (R7). -/
def ItemStore.eraseComplete (i : ItemStore) (b : BankNo) : ItemStore := i.setBank b {}

/-! ## Switchover (R14, R15) -/

/-- The clock has reached a day and minute: second 60 x minute of that day, or any later time (R14). -/
def Time.reached (t : Time) (day minute : Nat) : Bool :=
  decide (day < t.day) || (decide (t.day = day) && decide (60 * minute ≤ t.sec))

/-- The effective time of a bank's seal has been reached. -/
def Bank.effective (b : Bank) (clock : Option Time) : Bool :=
  match b.sealWord.read, clock with
  | some w, some t => t.reached w.day w.minute
  | _, _ => false

/-- The bank that is ACTIVE. -/
def ItemStore.activeNo (i : ItemStore) : Option BankNo := (fins 2).find? fun b => decide ((i.bank b).state = .active)

/-- Write RETIRED to a bank that is ACTIVE. -/
def Bank.retire (b : Bank) : Bank := if b.state = .active then { b with retiredWord := .good () } else b

/-- The flags merged and cleared, and the positions with ACTIVITY set counted as lost (R15, step 3). -/
def ItemStore.loseFlags (i : ItemStore) : ItemStore :=
  { i with
    lostSnapshots := bumpBy i.lostSnapshots (Flags.merge i.activity i.accessed).length, accessed := [], activity := [] }

/-- Steps 1 to 3 of a switchover to the sealed bank b (R15). -/
def ItemStore.switchTo (i : ItemStore) (b : BankNo) : ItemStore :=
  let gen := ((i.bank b).sealWord.read.map SealWord.gen).getD i.gen
  let i := i.setBank b { i.bank b with activeWord := .good () }
  let i := i.setBank (otherBank b) (i.bank (otherBank b)).retire
  { i with selected := some b, gen := gen }.loseFlags

/-! ## Item flags (R18, R20) -/

/-- At day roll ACCESSED merges into ACTIVITY (R18). -/
def ItemStore.rollFlags (i : ItemStore) : ItemStore :=
  { i with activity := Flags.merge i.activity i.accessed, accessed := [] }

/-- Up to 32 positions with ACTIVITY set, from `lo` on and up to `hi`, those `skip` passed over (R20, R199). -/
def ItemStore.activityFrom (i : ItemStore) (lo hi : Nat) (skip : Nat → Bool) : List Nat :=
  (i.activity.filter fun p => decide (lo ≤ p) && decide (p ≤ hi) && !skip p).take 32

/-- The item codes at positions of the active bank. -/
def ItemStore.codesAt (i : ItemStore) (ps : List Nat) : List Nat :=
  match i.activeBank with
  | none => []
  | some b => ps.filterMap fun p => b.records[p]?.map ItemRecord.code

/-- An acknowledged block's flags are cleared if its generation is current (R20). -/
def ItemStore.ackActivity (i : ItemStore) (gen : Nat) (ps : List Nat) : ItemStore :=
  if gen = i.gen then { i with activity := Flags.clear i.activity ps } else i

/-! ## Power loss and recovery (R4, R8, R22, R23) -/

/-- What a power loss leaves of a bank: its non-volatile content, an erase in flight as far as it had come. Of a bank
with nothing behind its header words an erase leaves no content (R22). -/
def Bank.afterCut (b : Bank) (stage : EraseStage) : Bank :=
  let kept := { b with erasing := none, labelUse := none, lastCode := none }
  if b.erasing.isNone then kept
  else
    match stage with
    | .untouched => kept
    | .headerPartly n =>
      { kept with
        openWord := if 1 ≤ n then .erased else b.openWord
        sealWord := if 2 ≤ n then .erased else b.sealWord
        activeWord := if 3 ≤ n then .erased else b.activeWord
        retiredWord := if 4 ≤ n then .erased else b.retiredWord }
    | .contentLeft depts n =>
      { depts := if depts then b.depts else [], records := b.records.take n, residue := b.hasContent }
    | .allErased => {}

/-- The non-volatile write the power loss fell into leaves its part done (R2, R4, R23). -/
def ItemStore.cutWrite (i : ItemStore) (w : CutWrite) : ItemStore :=
  match w with
  | .nothing => i
  | .openWord b => if (i.bank b).state = .erased then i.setBank b { i.bank b with openWord := .failed } else i
  | .append b whole next words =>
    if (bankCheck (i.bank b).state (.itemAppend []) false).isSome then i
    else
      let r := (i.bank b).runAppend i.gen whole 0
      if r.2.2 = .done ∧ (r.1.refuses next).isNone then
        i.setBank b { r.1.opened i.gen with tail := next.words.take words }
      else i.setBank b r.1
  | .dept b whole next =>
    if (bankCheck (i.bank b).state (.dept []) false).isSome then i
    else
      let r := (i.bank b).runDept i.gen whole 0
      if r.2.2 = .done ∧ !next.bad ∧ (r.1.deptEntry next.dept).isNone then i.setBank b (r.1.opened i.gen)
      else i.setBank b r.1
  | .sealWord b => if (i.bank b).state = .filling then i.setBank b { i.bank b with sealWord := .failed } else i
  | .switchover b done =>
    if (i.bank b).state = .sealed then i.setBank b { i.bank b with activeWord := if done then .good () else .failed }
    else i

/-- A bank's volatile sets rebuilt, its last record's words read (R4, R12, R22). -/
def Bank.recover (b : Bank) : Bank :=
  let b :=
    match recordOfWords b.tail with
    | some r => { b with records := b.records ++ [r], tail := [] }
    | none => b
  if b.state = .filling then
    { b with
      labelUse := some ((b.records.filterMap ItemRecord.labelIndex).foldl Flags.set [])
      lastCode := b.records.getLast?.map ItemRecord.code }
  else { b with labelUse := none, lastCode := none }

def Bank.sealGen (b : Bank) : Nat := (b.sealWord.read.map SealWord.gen).getD 0

/-- Two ACTIVE banks: RETIRED is written to the one of the lower seal generation, to bank 1 if they are equal (R23). -/
def ItemStore.resolvePair (i : ItemStore) : ItemStore :=
  if (i.bank 0).state = .active ∧ (i.bank 1).state = .active then
    if (i.bank 0).sealGen < (i.bank 1).sealGen then i.setBank 0 (i.bank 0).retire else i.setBank 1 (i.bank 1).retire
  else i

/-- The end of power-on recovery (R22, R23). -/
def ItemStore.recover (i : ItemStore) : ItemStore :=
  let i := { i with banks := updAll i.banks fun _ b => b.recover }
  let i := i.resolvePair
  { i with
    gen := (i.activeNo.map fun b => (i.bank b).sealGen).getD 0
    selected := i.activeNo
    accessed := [], activity := [], recovered := true }

/-! ## Record reads (R8, R24) -/

/-- A bank's header entry. While the bank is ERASING, `stand` says whether its header words still stand (log 12). -/
def Bank.header (b : Bank) (n : BankNo) (stand : Bool) : HeaderEntry :=
  let shows := b.erasing.isNone || stand
  { bank := n, state := b.state
    intended := if shows then b.openWord.read else none
    complete := b.count
    sealed := if shows then b.sealWord.read else none
    active := shows && b.activeWord.read.isSome
    retired := shows && b.retiredWord.read.isSome }

/-- The entry of a record bank 0x00, 0x01 or 0x02 that shows bank b. -/
def Bank.readEntry (b : Bank) (n : BankNo) (stand : Bool) (index : Nat) : ReadEntry :=
  if index = 65535 then .header (b.header n stand)
  else if b.erasing.isSome then .absent
  else
    match b.records[index]? with
    | some r => .record r
    | none => .absent

/-- The entry of record bank 0x00 to 0x03 at an index (Table 1-5, R24). -/
def ItemStore.readEntry (i : ItemStore) (stand : Bool) (recBank index : Nat) : ReadEntry :=
  match recBank with
  | 0 => match i.selected with
    | some b => (i.bank b).readEntry b stand index
    | none => .absent
  | 1 => (i.bank 0).readEntry 0 stand index
  | 2 => (i.bank 1).readEntry 1 stand index
  | 3 => if index < 100 then match i.deptEntry index with | some e => .dept e | none => .absent else .absent
  | _ => .absent

end Sys2Proof.Machine
end

