-- ==== Sys2Proof/Machine/Lookup.lean ====
section
/-!
DEFINITION. The lookup unit (Chapter 3): the three places a price is found in, the remote cache, queries and their
answers, and the answers to other stations' queries.
-/

namespace Sys2Proof.Machine

/-- What a FOUND result carries (R47, R48, R50, R56); a LOCAL one carries the department entry too, if it is written. -/
structure PriceFind where
  source : LineSource
  owner : Station
  gen : Nat
  item : ItemRecord
  level : Nat
  dept : Option DeptEntry := none
  deriving DecidableEq, Repr

/-- Lookup results (Table 3-1); `waiting` is a query started. -/
inductive LookupResult where
  | found (p : PriceFind)
  | unknown
  | noTrunk
  | busy
  | waiting
  deriving DecidableEq, Repr

/-- The result of a refused query (R51). -/
def HandResult.queryResult : HandResult → LookupResult
  | .noTrunk => .noTrunk
  | .placed | .wait | .busy | .drop => .busy

/-! ## The remote cache (R49, R50, R57, R60, R61) -/

/-- The set of an item code (section 3.2). -/
def setOf (code : Nat) : Fin 32 := ⟨code % 32, Nat.mod_lt _ (by decide)⟩

def CacheEntry.holds (code : Nat) (w : Option CacheEntry) : Bool := w.any fun e => decide (e.code = code)

/-- A cache lookup in a set (R50): the hit, if any, and the set with its older-way mark. -/
def CacheSet.look (c : CacheSet) (code : Nat) : Option CacheEntry × CacheSet :=
  if CacheEntry.holds code c.way0 then (c.way0, { c with older1 := true })
  else if CacheEntry.holds code c.way1 then (c.way1, { c with older1 := false })
  else (none, c)

/-- Installation takes way 1 (R57). -/
def CacheSet.picks1 (c : CacheSet) (code : Nat) : Bool :=
  if CacheEntry.holds code c.way0 then false
  else if CacheEntry.holds code c.way1 then true
  else if c.way0.isNone then false
  else if c.way1.isNone then true
  else c.older1

/-- Install an entry (R57). -/
def CacheSet.install (c : CacheSet) (e : CacheEntry) : CacheSet :=
  if c.picks1 e.code then { c with way1 := some e, older1 := false } else { c with way0 := some e, older1 := true }

/-- Make invalid the entries that a test picks; the older-way mark is left as it is (R60, R61). -/
def CacheSet.drop (p : CacheEntry → Bool) (c : CacheSet) : CacheSet :=
  { c with way0 := c.way0.filter fun e => !p e, way1 := c.way1.filter fun e => !p e }

def LookupUnit.dropCache (p : CacheEntry → Bool) (l : LookupUnit) : LookupUnit :=
  { l with cache := updAll l.cache fun _ c => c.drop p }

/-- The recorded generation of owner n has risen (R60). -/
def LookupUnit.ownerRaised (n : Station) (gen : Nat) (l : LookupUnit) : LookupUnit :=
  l.dropCache fun e => decide (e.owner = n) && decide (e.gen < gen)

/-- Owner n has become ABSENT (R61). -/
def LookupUnit.ownerAbsent (n : Station) (l : LookupUnit) : LookupUnit := l.dropCache fun e => decide (e.owner = n)

/-- Every entry invalid, every older-way mark at way 0 (R61). -/
def LookupUnit.clearCache (l : LookupUnit) : LookupUnit := { l with cache := updAll l.cache fun _ _ => {} }

def LookupUnit.onSet (code : Nat) (f : CacheSet → CacheSet) (l : LookupUnit) : LookupUnit :=
  { l with cache := updAt l.cache (setOf code) f }

/-! ## Queries (R51, R55, R58) -/

def LookupUnit.onQuery (k : TillNo) (f : QueryEntry → QueryEntry) (l : LookupUnit) : LookupUnit :=
  { l with queries := updAt l.queries k f }

/-- A FREE entry keeps only its sequence number (section 3.3). -/
def QueryEntry.freed (e : QueryEntry) : QueryEntry := { seq := e.seq }

/-- The PRICE QUERY frame (R51, R52). -/
def queryFrame (tag code : Nat) (p : Purpose) : Frame :=
  { dest := .broadcast, tag := tag, payload := .priceQuery code p }

/-- Start a query (R51). -/
def State.startQuery (k : TillNo) (code : Nat) (p : Purpose) (s : State) : LookupResult × State :=
  let seq := next32 s.lu.queries[k].seq
  let tag := 32 * k.val + seq
  let f := queryFrame tag code p
  let s' := (s.handOver f).onLu fun l => l.onQuery k fun e => { e with seq := seq }
  if s.handResult f = .placed then
    (.waiting, s'.onLu fun l => l.onQuery k fun e =>
      { e with state := .try1, code := code, purpose := p, tag := tag, ms := 20 })
  else ((s.handResult f).queryResult, s')

/-- Hand the query of an entry again (R55, R58). -/
def State.resendQuery (k : TillNo) (s : State) : LookupResult × State :=
  let e := s.lu.queries[k]
  let f := queryFrame e.tag e.code e.purpose
  if s.handResult f = .placed then
    (.waiting, (s.handOver f).onLu fun l => l.onQuery k fun e => { e with state := .try2, ms := 20 })
  else ((s.handResult f).queryResult, (s.handOver f).onLu fun l => l.onQuery k QueryEntry.freed)

/-- A query timer expires (R58); none where entry k does not wait. -/
def State.queryExpired (k : TillNo) (s : State) : Option LookupResult × State :=
  match s.lu.queries[k].state with
  | .free => (none, s)
  | .try1 => let r := s.resendQuery k; (some r.1, r.2)
  | .try2 => (some .unknown, s.onLu fun l => l.onQuery k QueryEntry.freed)

/-! ## The lookup (R47, R48) -/

/-- A lookup from the basket unit (R47). -/
def State.lookup (k : TillNo) (code : Nat) (p : Purpose) (s : State) : LookupResult × State :=
  if code = 0 ∨ 9999999999999 < code then (.unknown, s)
  else
    match s.is.search code with
    | some f =>
      (.found { source := .localBank, owner := s.stn, gen := f.gen, item := f.item, level := f.level, dept := f.dept },
        s.onIs fun i => i.access code p)
    | none =>
      let hit := s.lu.cache[setOf code].look code
      match hit.1 with
      | some e =>
        (.found { source := .remote, owner := e.owner, gen := e.gen, item := e.item, level := e.level },
          s.onLu fun l => l.onSet code fun _ => hit.2)
      | none => s.startQuery k code p

/-! ## Answers (R52 to R57) -/

/-- The record fields a PRICE ANSWER carries (Table 3-2). -/
def ItemRecord.abroad (r : ItemRecord) : ItemRecord := { r with labelIndex := none, labelClass := none }

/-- A delivered PRICE QUERY (R53). -/
def State.answerQuery (src : Station) (tag code : Nat) (p : Purpose) (s : State) : State :=
  match s.is.search code with
  | none => s
  | some f =>
    (s.onIs fun i => i.access code p).handOver (frameTo src tag (.priceAnswer f.gen f.item.abroad f.level))

/-- The waiting entry that an answer matches (R54). -/
def LookupUnit.matching (l : LookupUnit) (tag code : Nat) : Option TillNo :=
  (fins 8).find? fun k =>
    decide (l.queries[k].state ≠ .free) && decide (l.queries[k].tag = tag) && decide (l.queries[k].code = code)

/-- An answer from a station whose entry is not ABSENT is stale when its generation is lower than the recorded one
(R55). -/
def State.staleAnswer (s : State) (src : Station) (gen : Nat) : Bool :=
  decide (s.tp.peers[src].state ≠ .absent) && decide (gen < s.tp.peers[src].gen)

/-- A usable answer is taken (R56, R57). -/
def State.takeUsable (k : TillNo) (src : Station) (gen : Nat) (item : ItemRecord) (level : Nat) (s : State) :
    LookupResult × State :=
  let s := s.onLu fun l => l.onQuery k QueryEntry.freed
  let e : CacheEntry := { code := item.code, owner := src, gen := gen, item := item.abroad, level := level }
  let s := if s.tp.peers[src].state = .absent then s else s.onLu fun l => l.onSet item.code fun c => c.install e
  (.found { source := .remote, owner := src, gen := gen, item := item.abroad, level := level }, s)

/-- A delivered PRICE ANSWER (R54, R55): the till line it resolves, with its result. -/
def State.takeAnswer (src : Station) (tag gen : Nat) (item : ItemRecord) (level : Nat) (s : State) :
    Option (TillNo × LookupResult) × State :=
  match s.lu.matching tag item.code with
  | none => (none, s)
  | some k =>
    if s.staleAnswer src gen then
      if s.lu.queries[k].state = .try1 then
        let r := s.resendQuery k
        (some (k, r.1), r.2)
      else (none, s)
    else
      let r := s.takeUsable k src gen item level
      (some (k, r.1), r.2)

/-- The till lines whose queries wait. -/
def LookupUnit.waiting (l : LookupUnit) : List TillNo := (fins 8).filter fun k => decide (l.queries[k].state ≠ .free)

/-- Every waiting query ends (R61, R63). -/
def LookupUnit.endQueries (l : LookupUnit) : LookupUnit :=
  { l with queries := updAll l.queries fun _ e => if e.state = .free then e else e.freed }

end Sys2Proof.Machine
end

