-- ==== Sys2Proof/Machine/Clock.lean ====
section
/-!
DEFINITION. The station clock as the blocks read it: the advance of time (R204), the night window (R188) and the day
roll's due day (R189).
-/

namespace Sys2Proof.Machine

/-- One second later (R204); the day number has 32 bits. -/
def Time.next (t : Time) : Time :=
  if 86399 ≤ t.sec then { day := (t.day + 1) % 4294967296, sec := 0 } else { t with sec := t.sec + 1 }

/-- The time counted in seconds (R205). -/
def Time.seconds (t : Time) : Nat := t.day * 86400 + t.sec

/-- Two times differ by more than 1 s (R205). -/
def Time.farFrom (a b : Time) : Bool := decide (a.seconds + 1 < b.seconds) || decide (b.seconds + 1 < a.seconds)

/-- A minute of the day lies inside the window from minute s to minute e (R188). -/
def insideWindow (s e m : Nat) : Bool :=
  if s < e then decide (s ≤ m) && decide (m < e)
  else if e < s then decide (s ≤ m) || decide (m < e)
  else false

/-- The clock is inside the night window (R188). -/
def State.inWindow (s : State) : Bool :=
  match s.sc.page, s.stamp with
  | some r, some t => insideWindow r.winStart r.winEnd (t.sec / 60)
  | _, _ => false

/-- The greatest day whose window start a time has reached (R189). -/
def startedDay (winStart : Nat) (t : Time) : Int := if 60 * winStart ≤ t.sec then (t.day : Int) else t.day - 1

/-- The day mark that a SET station takes when its clock leaves UNSET or its setup is taken (R189, R202). -/
def State.freshMark (s : State) : Option Int :=
  match s.sc.page, s.stamp with
  | some r, some t => some (startedDay r.winStart t)
  | _, _ => none

/-- The day that a due day roll marks, if one is due (R189). -/
def State.dayDue (s : State) : Option Int :=
  match s.freshMark, s.sc.dayMark with
  | some d, some m => if m < d then some d else none
  | _, _ => none

/-- Rank of the clock states (R205). -/
def ClockState.rank : ClockState → Nat
  | .unset => 0
  | .peerSet => 1
  | .officeSet => 2

/-- A clock value handed on from an ANNOUNCE is adopted (R205). -/
def State.adopts (s : State) (t : Time) (st : ClockState) : Bool :=
  decide (st ≠ .unset) &&
    (decide (s.sc.clockState.rank < st.rank) || (decide (st = .officeSet) && s.sc.clock.any fun own => own.farFrom t))

end Sys2Proof.Machine
end

