-- ==== Sys2Proof/Machine/Guest.lean ====
section
/-!
DEFINITION. The guest unit (Chapter 10): the outbound messages of the guest air port, the client table, guest codes
and checks, admission and blocking.
-/

namespace Sys2Proof.Machine

/-! ## Outbound messages (R171) -/

def AirMsg.isData : AirMsg → Bool
  | .data _ => true
  | .joinResult _ _ | .codeResult _ _ | .notice _ _ | .restart => false

/-- DATA messages waiting to be sent. The one that the port is sending no longer waits, neither among the 32 nor for CLEAR
SETUP; the manual does not say when a message ceases to wait (DESIGN CHOICE, log 70). -/
def GuestUnit.dataWaiting (g : GuestUnit) : Nat := (g.airQueue.filter AirMsg.isData).length

/-- A DATA formed now is discarded: 32 wait (R171). -/
def GuestUnit.airFull (g : GuestUnit) : Bool := g.airSending.isSome && decide (32 ≤ g.dataWaiting)

def GuestUnit.countDrop (g : GuestUnit) : GuestUnit := { g with guestDropped := bump g.guestDropped }

/-- Hand a message to the guest air port, in the order formed (R171). -/
def State.air (m : AirMsg) (s : State) : State :=
  if s.gu.airSending.isNone then (s.onGu fun g => { g with airSending := some m }).emit (.air m)
  else if m.isData && s.gu.airFull then s.onGu GuestUnit.countDrop
  else s.onGu fun g => { g with airQueue := g.airQueue ++ [m] }

/-- The port has sent its message; the next one waiting is sent (R171). -/
def State.airSent (s : State) : State :=
  match s.gu.airQueue with
  | [] => s.onGu fun g => { g with airSending := none }
  | m :: rest => (s.onGu fun g => { g with airSending := some m, airQueue := rest }).emit (.air m)

/-- A guest packet is dropped and counted by the guest unit. -/
def State.dropGuest (s : State) : State := s.onGu GuestUnit.countDrop

/-! ## The client table (R172 to R174) -/

/-- The entry that carries a client address. -/
def GuestUnit.find (g : GuestUnit) (a : ClientAddr) : Option (Fin 128) :=
  (fins 128).find? fun i => decide (g.clients[i].state ≠ .free) && decide (g.clients[i].addr = a)

def GuestUnit.firstFree (g : GuestUnit) : Option (Fin 128) :=
  (fins 128).find? fun i => decide (g.clients[i].state = .free)

/-- The OPEN entry with the earliest last activity, the lowest-numbered among equal ones (R173). -/
def GuestUnit.oldestOpen (g : GuestUnit) : Option (Fin 128) :=
  (fins 128).foldl (fun best i =>
    if g.clients[i].state ≠ .opened then best
    else
      match best with
      | none => some i
      | some b => if g.clients[i].lastActivity < g.clients[b].lastActivity then some i else some b) none

def GuestUnit.onClient (i : Fin 128) (f : ClientEntry → ClientEntry) (g : GuestUnit) : GuestUnit :=
  { g with clients := updAt g.clients i f }

def State.onClient (i : Fin 128) (f : ClientEntry → ClientEntry) (s : State) : State := s.onGu (GuestUnit.onClient i f)

def State.client (s : State) (i : Fin 128) : ClientEntry := s.gu.clients[i]

/-- A FREE entry keeps only its check parity (R172). -/
def ClientEntry.freed (e : ClientEntry) : ClientEntry := { parity := e.parity }

/-- An entry taken by a JOIN (R173). -/
def ClientEntry.taken (e : ClientEntry) (a : ClientAddr) (now : Nat) : ClientEntry :=
  { state := .opened, addr := a, parity := e.parity, lastActivity := now }

def ClientEntry.touch (now : Nat) (e : ClientEntry) : ClientEntry := { e with lastActivity := now }

/-- Back on the open tier without code or check. -/
def ClientEntry.reopened (e : ClientEntry) : ClientEntry := { e with state := .opened, code := none, check := none }

/-- What a JOIN of a held client is told after ACCEPTED (R173). -/
def ClientEntry.told (e : ClientEntry) : AirMsg :=
  match e.state with
  | .admitted => .codeResult e.addr (.admitted (minutesUp e.admissionMs))
  | .blocked => .notice e.addr .blocked
  | .opened | .checking | .free => .notice e.addr .opened

/-- A FREE entry takes a new client (R173). -/
def State.takeClient (i : Fin 128) (a : ClientAddr) (s : State) : State :=
  (s.onClient i fun e => e.taken a s.now).air (.joinResult a .accepted)

/-- A JOIN (R171, R173). -/
def State.join (a : ClientAddr) (s : State) : State :=
  if !s.guestOn then s.air (.joinResult a .noService)
  else
    match s.gu.find a with
    | some i => ((s.onClient i (ClientEntry.touch s.now)).air (.joinResult a .accepted)).air (s.client i).told
    | none =>
      match s.gu.firstFree with
      | some i => s.takeClient i a
      | none =>
        match s.gu.oldestOpen with
        | some i => (s.air (.notice (s.client i).addr .evicted)).takeClient i a
        | none => s.air (.joinResult a .denyFull)

/-- A LEAVE (R171, R174). -/
def State.leave (a : ClientAddr) (s : State) : State :=
  if !s.guestOn then s
  else
    match s.gu.find a with
    | some i => s.onClient i ClientEntry.freed
    | none => s

/-! ## Client traffic (R175, R176) -/

/-- Total bytes stay at the top once there (Table 10-2). -/
def ClientEntry.carry (n : Nat) (e : ClientEntry) : ClientEntry := { e with totalBytes := bumpBy e.totalBytes n }

/-- A packet of a client passes (R175): its entry afterwards, or none where the packet is dropped. -/
def ClientEntry.pass (e : ClientEntry) (p : Packet) : Option ClientEntry :=
  let e' := { e.carry p.len with net := some p.src }
  match e.state with
  | .admitted => some e'
  | .opened | .checking =>
    if e.windowBytes + p.len ≤ 800 then some { e' with windowBytes := e.windowBytes + p.len } else none
  | .blocked | .free => none

/-- A DATA from the radio is metered (R171, R175): whether the packet passes on to the forwarding unit. -/
def State.meter (a : ClientAddr) (p : Packet) (s : State) : Bool × State :=
  if !s.guestOn then (false, s.dropGuest)
  else
    match s.gu.find a with
    | none => (false, s.dropGuest)
    | some i =>
      let e := (s.client i).touch s.now
      match e.pass p with
      | some e' => (true, s.onClient i fun _ => e')
      | none => (false, (s.onClient i fun _ => e).dropGuest)

/-- A packet for the GUEST port (R176). -/
def State.deliverGuest (p : Packet) (s : State) : State :=
  if !s.guestOn then s.dropGuest
  else
    match (fins 128).find? (fun i => decide ((s.client i).state ≠ .free) && decide ((s.client i).net = some p.dst)) with
    | none => s.dropGuest
    | some i =>
      if (s.client i).state = .blocked then s.dropGuest
      else if s.gu.airFull then s.dropGuest
      else (s.onClient i (ClientEntry.carry p.len)).air (.data p)

/-- A new rate window (R175). -/
def GuestUnit.rateWindow (g : GuestUnit) : GuestUnit :=
  { g with clients := updAll g.clients fun _ e => { e with windowBytes := 0 }, rateMs := 100 }

/-! ## Guest codes (R177 to R180) -/

/-- The first serial not listed, counting on from n, over at most k + 1 serials (R177). -/
def freeSerial (codes : List CodeEntry) : Nat → Nat → Nat
  | 0, n => n % 10000
  | k + 1, n => if codes.any (fun c => decide (c.serial = n % 10000)) then freeSerial codes k (n + 1) else n % 10000

/-- Issue a code at a close of a basket total (R177): the serial, if one is issued, and the unit afterwards. -/
def GuestUnit.issue (g : GuestUnit) (threshold : Nat) (total : Int) (time : Option Time) (till : TillNo) :
    Option Nat × GuestUnit :=
  if threshold = 0 ∨ total < threshold then (none, g)
  else if 256 ≤ g.codes.length then (none, { g with notIssued := bump g.notIssued })
  else
    let n := freeSerial g.codes g.codes.length g.serial
    (some n,
      { g with
        codes := g.codes ++ [{ serial := n, uses := 0, validMs := 14400000, issued := time, till := till }]
        serial := (n + 1) % 10000 })

/-- The issuer's judgement of a serial (R180). -/
def GuestUnit.judgeCode (g : GuestUnit) (serial : Nat) : CodeOutcome :=
  match g.codes.find? fun c => decide (c.serial = serial) with
  | none => .deny .unknown
  | some c => if c.uses < 2 then .ok else .deny .used

def GuestUnit.onCode (serial : Nat) (f : CodeEntry → CodeEntry) (g : GuestUnit) : GuestUnit :=
  { g with codes := g.codes.map fun c => if c.serial = serial then f c else c }

/-- A good code's uses rise by 1 (R180). -/
def GuestUnit.useCode (serial : Nat) (g : GuestUnit) : GuestUnit :=
  g.onCode serial fun c => { c with uses := c.uses + 1 }

/-- A code's uses fall by 1 if it is listed and they are above 0 (R181, R182). -/
def GuestUnit.giveBack (serial : Nat) (g : GuestUnit) : GuestUnit :=
  g.onCode serial fun c => { c with uses := c.uses - 1 }

/-- A code leaves the list (R178). -/
def GuestUnit.removeCode (serial : Nat) (g : GuestUnit) : GuestUnit :=
  { g with codes := g.codes.filter fun c => decide (c.serial ≠ serial) }

/-- The digit of a character code; the manual gives no encoding of the entered characters, and the model takes the codes
48 to 57 (PRESUMED, log 71). -/
def digitOf (c : Nat) : Option Nat := if 48 ≤ c ∧ c ≤ 57 then some (c - 48) else none

/-- The code that entered characters spell; none is MALFORMED (R179). -/
def readCode (chars : List Nat) : Option GuestCode :=
  match chars.map digitOf with
  | [some a, some b, some c, some d, some e, some f] =>
    if h : a * 10 + b ≤ 15 then
      some { issuer := ⟨a * 10 + b, by omega⟩, serial := c * 1000 + d * 100 + e * 10 + f }
    else none
  | _ => none

/-- A client is admitted (R183). -/
def State.admitClient (i : Fin 128) (s : State) : State :=
  (s.onClient i fun e => { e with state := .admitted, admissionMs := 7200000, check := none }).air
    (.codeResult (s.client i).addr (.admitted 120))

/-- A client returns to OPEN without code or check, and is told why (R179, R181, R182). -/
def State.endCheck (i : Fin 128) (r : CodeResult) (s : State) : State :=
  (s.onClient i ClientEntry.reopened).air (.codeResult (s.client i).addr r)

/-- The tag of a check of entry i (R179). -/
def checkTag (i : Fin 128) (parity : Bool) : Nat := 2 * i.val + parity.toNat

/-- An OPEN client's code is checked (R179). -/
def State.startCheck (i : Fin 128) (c : GuestCode) (s : State) : State :=
  let parity := !(s.client i).parity
  let s := s.onClient i fun e => { e with state := .checking, code := some c, parity := parity }
  if c.issuer = s.stn then
    match s.gu.judgeCode c.serial with
    | .ok => (s.onGu (GuestUnit.useCode c.serial)).admitClient i
    | .deny r => s.endCheck i (.deny r)
  else if s.tp.peers[c.issuer].state = .absent then s.endCheck i .retry
  else
    let f := frameTo c.issuer (checkTag i parity) (.codeCheck .check c)
    if s.handResult f = .placed then
      (s.handOver f).onClient i fun e =>
        { e with check := some { issuer := c.issuer, tag := checkTag i parity, ms := 50 } }
    else (s.handOver f).endCheck i .retry

/-- A CODE from the radio (R171, R179). -/
def State.enterCode (a : ClientAddr) (chars : List Nat) (s : State) : State :=
  if !s.guestOn then s
  else
    match s.gu.find a with
    | none => s.air (.codeResult a (.deny .notJoined))
    | some i =>
      let s := s.onClient i (ClientEntry.touch s.now)
      match (s.client i).state with
      | .checking => s.air (.codeResult a .checking)
      | .admitted => s.air (.codeResult a (.admitted (minutesUp (s.client i).admissionMs)))
      | .blocked => s.air (.codeResult a (.blocked (minutesUp (s.client i).blockMs)))
      | .opened | .free =>
        match readCode chars with
        | none => s.air (.codeResult a (.deny .malformed))
        | some c => s.startCheck i c

/-- A delivered CODE CHECK of mode CHECK, at the issuer (R180). -/
def State.answerCheck (src : Station) (tag : Nat) (c : GuestCode) (s : State) : State :=
  let o := s.gu.judgeCode c.serial
  let f := frameTo src tag (.codeAnswer c o)
  if s.handResult f = .placed ∧ o = .ok then (s.handOver f).onGu (GuestUnit.useCode c.serial) else s.handOver f

/-- The entry whose check an answer matches (R181). -/
def GuestUnit.matching (g : GuestUnit) (src : Station) (tag : Nat) (c : GuestCode) : Option (Fin 128) :=
  (fins 128).find? fun i =>
    decide (g.clients[i].state = .checking) && decide (g.clients[i].code = some c) &&
      g.clients[i].check.any fun k => decide (k.tag = tag) && decide (k.issuer = src)

/-- A use consumed for an admission that was not granted is given back to the issuer (R181). -/
def State.returnUse (c : GuestCode) (s : State) : State :=
  let f := frameTo c.issuer (Config.openTag s.freeIdx % 256) (.codeCheck .giveBack c)
  if s.handResult f = .placed then (s.handOver f).spend
  else ((s.handOver f).onGu fun g => { g with notReturned := bump g.notReturned }).spend

/-- A delivered CODE ANSWER, at the asker (R181). -/
def State.takeCodeAnswer (src : Station) (tag : Nat) (c : GuestCode) (o : CodeOutcome) (s : State) : State :=
  match s.gu.matching src tag c, o with
  | some i, .ok => s.admitClient i
  | some i, .deny r => s.endCheck i (.deny r)
  | none, .deny _ => s
  | none, .ok => s.returnUse c

/-- Entry i holds a check in progress. -/
def State.checking (s : State) (i : Fin 128) : Bool :=
  decide ((s.client i).state = .checking) && (s.client i).check.isSome

/-- The check timer of an entry expires (R181). -/
def State.checkExpired (i : Fin 128) (s : State) : State := if s.checking i then s.endCheck i .retry else s

/-- End every check that a test of its entry picks, with RETRY (R182). The manual gives no order in which several
clients are told; the model goes by rising entry number (DESIGN CHOICE, log 60). -/
def State.endChecks (p : ClientEntry → Bool) (s : State) : State :=
  (fins 128).foldl (fun s i => if s.checking i && p (s.client i) then s.endCheck i .retry else s) s

/-- Issuer n has become ABSENT (R182). -/
def State.issuerAbsent (n : Station) (s : State) : State :=
  s.endChecks fun e => e.check.any fun k => decide (k.issuer = n)

/-! ## Admission and blocking (R183, R184) -/

/-- Admission remaining reaches 0 (R183). -/
def State.admissionEnded (i : Fin 128) (s : State) : State :=
  if (s.client i).state = .admitted then
    (s.onClient i fun e => { e.reopened with admissionMs := 0, windowBytes := 0 }).air
      (.notice (s.client i).addr .opened)
  else s

/-- Block remaining reaches 0 (R184). -/
def State.blockEnded (i : Fin 128) (s : State) : State :=
  if (s.client i).state = .blocked then
    (s.onClient i fun e => { e with state := .opened, blockMs := 0, strikes := 0, windowBytes := 0 }).air
      (.notice (s.client i).addr .opened)
  else s

/-- The sixteenth strike blocks a client (R184). -/
def ClientEntry.block (e : ClientEntry) : ClientEntry :=
  { e with state := .blocked, blockMs := 600000, admissionMs := 0, check := none, code := none }

/-- A strike for a client address (R184). -/
def State.strike (a : ClientAddr) (s : State) : State :=
  match s.gu.find a with
  | none => s
  | some i =>
    if (s.client i).state = .blocked then s
    else if (s.client i).strikes + 1 < 16 then s.onClient i fun e => { e with strikes := e.strikes + 1 }
    else (s.onClient i fun e => { e.block with strikes := 16 }).air (.notice a .blocked)

/-! ## Teardowns (R185) -/

/-- CLEAR SETUP: every client is told EVICTED and freed, and the DATA messages waiting are discarded and counted. The
manual gives no order in which the clients are told; the model goes by rising entry number (DESIGN CHOICE, log 60). -/
def State.evictAll (s : State) : State :=
  let s := s.onGu fun g =>
    { g with
      airQueue := g.airQueue.filter fun m => !m.isData
      guestDropped := bumpBy g.guestDropped g.dataWaiting }
  (fins 128).foldl (fun s i =>
    if (s.client i).state = .free then s
    else (s.air (.notice (s.client i).addr .evicted)).onClient i ClientEntry.freed) s

/-- RESTART, when the station becomes SET with guest service on. -/
def State.guestRestart (s : State) : State := if s.guestOn then s.air .restart else s

/-! ## What others see (R186) -/

def GuestUnit.inState (g : GuestUnit) (st : ClientState) : Nat :=
  ((fins 128).filter fun i => decide (g.clients[i].state = st)).length

def GuestUnit.status (g : GuestUnit) : GuestStatus :=
  { free := g.inState .free, opened := g.inState .opened, checking := g.inState .checking
    admitted := g.inState .admitted, blocked := g.inState .blocked
    codes := g.codes.length, notIssued := g.notIssued, notReturned := g.notReturned }

/-- Entry i of record bank 0x30. -/
def State.clientEntry (s : State) (i : Nat) : ReadEntry :=
  if h : i < 128 then .client (s.client ⟨i, h⟩)
  else if i = 65535 then .guestUnit s.guestOn s.gu.serial s.gu.codes.length
  else .absent

/-- Entry i of record bank 0x31. -/
def State.codeEntry (s : State) (i : Nat) : ReadEntry :=
  if i ≤ 255 then
    match s.gu.codes[i]? with
    | some c => .code c { issuer := s.stn, serial := c.serial }
    | none => .absent
  else .absent

end Sys2Proof.Machine
end

