-- ==== Sys2Proof/Machine/Forward.lean ====
section
/-!
DEFINITION. The forwarding unit and the uplink port (Chapter 9): routes, permission, next hops, relays and the office
pending list, reassembly, uplink queues and guest credit.
-/

namespace Sys2Proof.Machine

/-! ## Drops (R157, R170) -/

/-- A drop raises the counter of the packet's origin class by k. -/
def State.dropMany (cls : OriginClass) (k : Nat) (s : State) : State :=
  s.onFu fun f =>
    match cls with
    | .till => { f with droppedTill := bumpBy f.droppedTill k }
    | .office => { f with droppedOffice := bumpBy f.droppedOffice k }
    | .guest => { f with guestDropped := bumpBy f.guestDropped k }

def State.dropPacket (cls : OriginClass) (s : State) : State := s.dropMany cls 1

/-- A drop for lack of a carrier (R163, R170). -/
def State.dropNoCarrier (s : State) : State := s.onFu fun f => { f with noCarrier := bump f.noCarrier }

/-! ## The route table (R158 to R161) -/

/-- The setup routes, in the order of Table 9-2 (R159). The extra ones stand in one row of it, which gives no order among
them; they stand in the order of the setup record (DESIGN CHOICE, log 78). -/
def setupRoutesOf (r : SetupRecord) : List Route :=
  let hop : NextHop := if r.uplink = .yes then .uplink else .trunkCarrier
  [ { net := r.tillNet, hop := .tillLines, till := true, office := true, guest := false },
    { net := r.guestNet, hop := if r.guestService = .yes then .guestPort else .drop
      till := false, office := false, guest := true },
    { net := r.officeNet, hop := hop, till := true, office := true, guest := false },
    { net := { addr := 0, len := 0 }, hop := hop, till := true, office := true, guest := true } ] ++ r.extra.filterMap ExtraRoute.entry

/-- The learned routes, by station number (R160). -/
def Forwarding.learnedRoutes (f : Forwarding) : List Route :=
  (fins 16).filterMap fun n =>
    f.learned[n].map fun net => { net := net, hop := .trunkStation n, till := true, office := true, guest := false }

/-- The entries in the order of preference among equal lengths (R161). -/
def Forwarding.table (f : Forwarding) : List Route := f.setupRoutes ++ f.learnedRoutes

/-- The longest prefix that covers the destination, the first in order among equal ones (R161). -/
def bestRoute (rs : List Route) (dst : NetAddr) : Option Route :=
  rs.foldl (fun best r =>
    if r.net.covers dst then
      match best with
      | none => some r
      | some b => if b.net.len < r.net.len then some r else some b
    else best) none

/-- The permission mask (R162). -/
def Route.permits (r : Route) : OriginClass → Bool
  | .till => r.till
  | .office => r.office
  | .guest => r.guest

/-- The learned route of a peer after its entry changed (R160). -/
def State.relearn (n : Station) (s : State) : State :=
  if n = s.stn then s
  else
    let net := if s.tp.peers[n].state = .absent then none else s.tp.peers[n].subnet
    s.onFu fun f => { f with learned := updAt f.learned n fun _ => net }

/-! ## Relaying (R164, R165) -/

/-- The number of RELAY parts of a packet (R164). -/
def Packet.relayParts (p : Packet) : Nat := if p.len ≤ 500 then 1 else if p.len ≤ 1000 then 2 else 3

/-- RELAY part k of a packet. -/
def relayFrame (dst : Station) (tag : Nat) (cls : OriginClass) (p : Packet) (k : Nat) : Frame :=
  frameTo dst tag (.relay
    { origin := cls, k := k, n := p.relayParts, bytes := min 500 (p.len - 500 * (k - 1)), packet := p })

/-- A part that is refused ends the hand-over of its packet (R164). -/
def State.relayRefused (dst : Station) (tag : Nat) (cls : OriginClass) (p : Packet) (k : Nat) (r : HandResult)
    (s : State) : State :=
  match cls, r with
  | .guest, .drop => s
  | .office, _ =>
    if s.fu.officePending.length < 8 then
      (s.onFu fun f =>
        { f with officePending := f.officePending ++ [{ packet := p, dest := dst, tag := tag, next := k }] }).recordC
        (relayFrame dst tag .office p k)
    else s.dropPacket .office
  | c, _ => s.dropPacket c

/-- Hand the parts of a packet from part k on, at most m of them. -/
def State.relayParts (dst : Station) (tag : Nat) (cls : OriginClass) (p : Packet) : Nat → Nat → State → State
  | 0, _, s => s
  | m + 1, k, s =>
    let f := relayFrame dst tag cls p k
    if s.handResult f = .placed then (s.handOver f).relayParts dst tag cls p m (k + 1)
    else (s.handOver f).relayRefused dst tag cls p k (s.handResult f)

/-- Relay a packet to station n (R164). Its parts carry the relay number as it stood before it rises for this packet, so
that the first packet after reset is tagged 0; the manual does not say (DESIGN CHOICE, log 76). -/
def State.relayTo (n : Station) (cls : OriginClass) (p : Packet) (s : State) : State :=
  (s.onFu fun f => { f with relayNo := next256 f.relayNo }).relayParts n s.fu.relayNo cls p p.relayParts 1

/-- The frame of a pending packet's next part. -/
def OfficePending.frame (e : OfficePending) : Frame := relayFrame e.dest e.tag .office e.packet e.next

/-- Room is offered to the office pending list (R165): the oldest packet's next part is handed. -/
def State.offerForward (s : State) : State :=
  match s.fu.officePending with
  | [] => s
  | e :: rest =>
    if s.handResult e.frame = .placed then
      (s.handOver e.frame).onFu fun u =>
        { u with
          officePending := if e.packet.relayParts ≤ e.next then rest else { e with next := e.next + 1 } :: rest }
    else s.handOver e.frame

/-- Pending packets to a station that became ABSENT are dropped and counted (R165). -/
def State.pendingAbsent (n : Station) (s : State) : State :=
  let gone := (s.fu.officePending.filter fun e => decide (e.dest = n)).length
  (s.onFu fun f => { f with officePending := f.officePending.filter fun e => decide (e.dest ≠ n) }).dropMany .office gone

/-- A packet with parts withdrawn from a queue: the first and the last of them (R164). -/
structure Withdrawn where
  dest : Station
  tag : Nat
  origin : OriginClass
  packet : Packet
  first : Nat
  last : Nat
  deriving DecidableEq, Repr

/-- A RELAY frame as the withdrawal of its one part. -/
def Frame.withdrawn (f : Frame) : Option Withdrawn :=
  match f.dest, f.payload with
  | .station d, .relay p =>
    some { dest := d, tag := f.tag, origin := p.origin, packet := p.packet, first := p.k, last := p.k }
  | _, _ => none

/-- `x` is a part of the packet of `w` that stands before the parts of `w`. -/
def Withdrawn.continues (x w : Withdrawn) : Bool :=
  decide (x.dest = w.dest) && decide (x.tag = w.tag) && decide (x.origin = w.origin) && decide (x.packet = w.packet) &&
    decide (x.last + 1 = w.first)

/-- One part more, before the packets withdrawn behind it: of one of them, or of another. -/
def joinPart (x : Withdrawn) (ws : List Withdrawn) : List Withdrawn :=
  match ws.find? x.continues with
  | some w => { w with first := x.first } :: ws.erase w
  | none => x :: ws

/-- The packets of an origin class whose parts stand in a queue, in the order of their first parts there. The parts of
one packet stand in rising order, so that two packets of one relay number are told apart (R164). -/
def withdrawnPackets (cls : OriginClass) (q : List Frame) : List Withdrawn :=
  ((q.filterMap Frame.withdrawn).filter fun w => decide (w.origin = cls)).foldr joinPart []

/-- The pending packet of which these parts were placed: it waits with the part that follows them. -/
def OfficePending.awaits (w : Withdrawn) (e : OfficePending) : Bool :=
  decide (e.dest = w.dest) && decide (e.tag = w.tag) && decide (e.packet = w.packet) && decide (e.next = w.last + 1)

/-- An OFFICE packet with parts withdrawn returns (R165): one none of whose parts had been sent is pending from part 1,
in its own place if it was pending already, else behind the others as room allows (DESIGN CHOICE, log 73: the manual has
it placed 'in its original order' and does not say how that stands against packets already pending); any other is
dropped and counted. The same for one that had been dropped and counted for a full list (DESIGN CHOICE, log 65). -/
def State.returnRelay (w : Withdrawn) (s : State) : State :=
  let l := s.fu.officePending
  if w.first = 1 then
    if l.any (OfficePending.awaits w) then
      s.onFu fun f => { f with officePending := onFirst (OfficePending.awaits w) (fun e => { e with next := 1 }) l }
    else if l.length < 8 then
      s.onFu fun f =>
        { f with officePending := l ++ [{ packet := w.packet, dest := w.dest, tag := w.tag, next := 1 }] }
    else s.dropPacket .office
  else (s.onFu fun f => { f with officePending := l.eraseP (OfficePending.awaits w) }).dropPacket .office

/-- The OFFICE packets of a queue's frames return, in their order (R165). -/
def State.returnRelays (q : List Frame) (s : State) : State :=
  (withdrawnPackets .office q).foldl (fun s w => s.returnRelay w) s

/-! ## The uplink port (R167 to R169) -/

/-- The bytes of the frame a packet leaves in (R168). -/
def Packet.frameLength (p : Packet) : Nat := max (p.len + 18) 64

/-- The frame that starts next, if one does, and the unit afterwards (R168). -/
def Forwarding.nextFrame (f : Forwarding) : Option Packet × Forwarding :=
  match f.upTill with
  | p :: rest => (some p, { f with upTill := rest, upSending := some { origin := .till, packet := p } })
  | [] =>
    match f.upOffice with
    | p :: rest => (some p, { f with upOffice := rest, upSending := some { origin := .office, packet := p } })
    | [] =>
      match f.upGuest with
      | p :: rest =>
        if 0 < f.credit then
          (some p,
            { f with
              upGuest := rest, upSending := some { origin := .guest, packet := p }
              credit := f.credit - p.frameLength })
        else (none, f)
      | [] => (none, f)

/-- The port starts the next frame when none is being sent and the link is up (R168). -/
def State.kickUplink (s : State) : State :=
  if s.fu.upSending.isNone && s.linkCounts then
    let r := s.fu.nextFrame
    match r.1 with
    | some p => (s.onFu fun _ => r.2).emit (.uplink p)
    | none => s
  else s

/-- A packet joins the tail of its class's queue, or is dropped and counted (R167). -/
def State.enqueueUplink (cls : OriginClass) (p : Packet) (s : State) : State :=
  match cls with
  | .till =>
    if s.fu.upTill.length < 32 then (s.onFu fun f => { f with upTill := f.upTill ++ [p] }).kickUplink
    else s.dropPacket cls
  | .office =>
    if s.fu.upOffice.length < 64 then (s.onFu fun f => { f with upOffice := f.upOffice ++ [p] }).kickUplink
    else s.dropPacket cls
  | .guest =>
    if s.fu.upGuest.length < 64 then (s.onFu fun f => { f with upGuest := f.upGuest ++ [p] }).kickUplink
    else s.dropPacket cls

/-- Every uplink queue is emptied, each packet counted by its origin class (R167, R170). -/
def State.emptyUplink (s : State) : State :=
  let s' := ((s.dropMany .till s.fu.upTill.length).dropMany .office s.fu.upOffice.length).dropMany .guest
    s.fu.upGuest.length
  s'.onFu fun f => { f with upTill := [], upOffice := [], upGuest := [] }

/-- Whole bytes the link carries in 0.1 s (R169). -/
def LinkRate.windowBytes : LinkRate → Nat
  | .mbit10 => 125000
  | .mbit100 => 1250000
  | .mbit1000 => 12500000

/-- The session holds the credit at 0 (R169). -/
def SessionState.holdsCredit : SessionState → Bool
  | .opened | .closing => true
  | .day | .calling => false

/-- The credit granted at a window start (R169). -/
def State.grantedCredit (s : State) : Nat :=
  match s.sc.page with
  | none => 0
  | some r =>
    if s.nlc.session.holdsCredit || !s.linkCounts then 0 else s.fu.rate.windowBytes * clampShare r.guestShare / 100

/-- A guest window starts (R169). -/
def State.creditWindow (s : State) : State :=
  (s.onFu fun f => { f with credit := s.grantedCredit, windowMs := 100 }).kickUplink

/-- The frame on the wire ends (R168). -/
def State.uplinkEnded (s : State) : State := (s.onFu fun f => { f with upSending := none }).kickUplink

/-- A new link report (R167, R169): on link down every queued packet is dropped and counted, a frame being sent is
lost with it, and the credit is 0. -/
def State.linkReport (up : Bool) (rate : LinkRate) (s : State) : State :=
  let s := s.onFu fun f => { f with linkUp := up, rate := if up then rate else f.rate }
  if s.linkCounts then s.kickUplink else s.emptyUplink.onFu fun f => { f with upSending := none, credit := 0 }

/-! ## Routing (R157, R161 to R163) -/

/-- Where a packet entered the station (R157). -/
inductive Entry where
  | till
  | guestAir (a : ClientAddr)
  | office
  | relay
  | uplink
  deriving DecidableEq, Repr

/-- The packet arrived by RELAY; it crosses the trunk no second time (R163). -/
def Entry.crossed : Entry → Bool
  | .relay => true
  | .till | .guestAir _ | .office | .uplink => false

/-- The till line of an address in a subnet, numbered from its start (R163). -/
def lineOf (n : Net) (a : NetAddr) : Option TillNo :=
  let off := (a - n.start).toNat
  if h : 1 ≤ off ∧ off ≤ 8 then some ⟨off - 1, by omega⟩ else none

/-- Next hop TILL lines (R163). -/
def State.toTill (cls : OriginClass) (p : Packet) (s : State) : State :=
  match s.sc.page with
  | none => s.dropPacket cls
  | some r =>
    match lineOf r.tillNet p.dst with
    | some k => if s.lineEnabled k then s.emit (.tillData k p) else s.dropPacket cls
    | none => s.dropPacket cls

/-- Next hop TRUNK station n (R163). -/
def State.toStation (from_ : Entry) (n : Station) (cls : OriginClass) (p : Packet) (s : State) : State :=
  if from_.crossed then s.dropPacket cls
  else if s.tp.peers[n].state = .absent then s.dropPacket cls
  else s.relayTo n cls p

/-- Next hop UPLINK or TRUNK-CARRIER, by the carrier judged at this moment (R163). -/
def State.toCarrier (from_ : Entry) (cls : OriginClass) (p : Packet) (s : State) : State :=
  match s.judge with
  | none => s.dropNoCarrier
  | some c =>
    if c = s.stn then
      if from_ = .uplink then s.dropPacket cls else s.enqueueUplink cls p
    else if from_.crossed then s.dropNoCarrier
    else s.relayTo c cls p

/-- Route a packet (R157, R161 to R163). -/
def State.route (from_ : Entry) (cls : OriginClass) (p : Packet) (s : State) : State :=
  if !p.lengthOk then s.dropPacket cls
  else
    match bestRoute s.fu.table p.dst with
    | none => s.dropPacket cls
    | some r =>
      if !r.permits cls then
        match from_, cls with
        | .guestAir a, .guest => (s.dropPacket cls).strike a
        | _, _ => s.dropPacket cls
      else
        match r.hop with
        | .drop => s.dropPacket cls
        | .tillLines => s.toTill cls p
        | .guestPort => s.deliverGuest p
        | .trunkStation n => s.toStation from_ n cls p
        | .uplink | .trunkCarrier => s.toCarrier from_ cls p

/-! ## Reassembly (R166) -/

/-- The entry that holds a source's packet of this tag. -/
def Forwarding.reasmOf (f : Forwarding) (src : Station) (tag : Nat) : Option (Fin 8) :=
  (fins 8).find? fun i => f.reasm[i].any fun e => decide (e.src = src) && decide (e.tag = tag)

/-- A free entry for part 1; the manual does not say which, and the model takes the lowest-numbered (DESIGN CHOICE,
log 72). -/
def Forwarding.freeReasm (f : Forwarding) : Option (Fin 8) := (fins 8).find? fun i => f.reasm[i].isNone

def State.setReasm (i : Fin 8) (e : Option Reasm) (s : State) : State :=
  s.onFu fun f => { f with reasm := updAt f.reasm i fun _ => e }

/-- Forget a source's counted packet of a tag: the tag names a new packet. -/
def State.forgetMark (src : Station) (tag : Nat) (s : State) : State :=
  s.onFu fun f => { f with relayDropped := updAt f.relayDropped src fun l => l.filter fun m => decide (m.tag ≠ tag) }

/-- Remember that the discard of a source's packet is counted: of tag `tag` and n parts, of which `last` is the highest
seen (log 23). -/
def State.markDropped (src : Station) (tag n last : Nat) (s : State) : State :=
  (s.forgetMark src tag).onFu fun f =>
    { f with relayDropped := updAt f.relayDropped src fun l => l ++ [{ tag := tag, n := n, last := last }] }

/-- The packet of part k of n is one whose discard is counted already: parts of one packet come in rising order. -/
def RelayMark.covers (tag n k : Nat) (m : RelayMark) : Bool :=
  decide (m.tag = tag) && decide (m.n = n) && decide (m.last < k)

/-- Part k of n of a packet without an entry is discarded; the discard is counted once per packet (R166). -/
def State.countRelay (src : Station) (tag n k : Nat) (cls : OriginClass) (s : State) : State :=
  if s.fu.relayDropped[src].any (RelayMark.covers tag n k) then s.markDropped src tag n k
  else (s.dropPacket cls).markDropped src tag n k

/-- An entry's partial packet is discarded and counted by its class (R166). -/
def State.discardReasm (i : Fin 8) (e : Reasm) (s : State) : State := (s.dropPacket e.origin).setReasm i none

/-- What part 1 gives of its packet: the addresses, which stand first, and its own bytes (R164, R166). -/
def RelayPart.opening (p : RelayPart) : Packet := { p.packet with len := p.bytes }

/-- Contents of one packet, or of parts of different packets, which the manual leaves open (log 61). -/
def PacketBody.join (a b : PacketBody) : PacketBody := if a = b then a else Config.joinedBody a b

/-- What the parts so far give, with one part more: the bytes add up (R166). -/
def Packet.add (q : Packet) (p : RelayPart) : Packet :=
  { q with len := q.len + p.bytes, body := q.body.join p.packet.body }

/-- A new entry for part 1. -/
def newReasm (src : Station) (tag : Nat) (p : RelayPart) : Reasm :=
  { src := src, tag := tag, origin := p.origin, n := p.n, next := 2, packet := p.opening, ms := 20 }

/-- Part 1 of 2 or 3 (R166): it takes the entry of its source and tag, whose partial packet is discarded, or a free
one; with none free it is discarded. -/
def State.takeFirstRelay (src : Station) (tag : Nat) (p : RelayPart) (s : State) : State :=
  match s.fu.reasmOf src tag with
  | some i =>
    match s.fu.reasm[i] with
    | some e => ((s.discardReasm i e).forgetMark src tag).setReasm i (some (newReasm src tag p))
    | none => s
  | none =>
    match s.fu.freeReasm with
    | some i => (s.forgetMark src tag).setReasm i (some (newReasm src tag p))
    | none => (s.dropPacket p.origin).markDropped src tag p.n p.k

/-- A part other than part 1 (R166): the next expected one is added, and the last one gives the packet, made of what its
parts brought; any other part is discarded, with the entry it names. A part of another part count than its entry is
such a part; its origin class is not compared with the entry's (DESIGN CHOICE, log 63). -/
def State.takeLaterRelay (src : Station) (tag : Nat) (p : RelayPart) (s : State) : State :=
  match s.fu.reasmOf src tag with
  | none => s.countRelay src tag p.n p.k p.origin
  | some i =>
    match s.fu.reasm[i] with
    | none => s
    | some e =>
      if p.k = e.next ∧ p.n = e.n then
        if e.n ≤ p.k then (s.setReasm i none).route .relay e.origin (e.packet.add p)
        else s.setReasm i (some { e with next := e.next + 1, packet := e.packet.add p })
      else ((s.dropPacket p.origin).setReasm i none).markDropped src tag p.n p.k

/-- A RELAY part (R166). A packet of one part is routed at once; an entry that its source and tag hold is left to its
timer, which the manual does not say (DESIGN CHOICE, log 77). -/
def State.takeRelay (src : Station) (tag : Nat) (p : RelayPart) (s : State) : State :=
  if p.n = 1 ∧ p.k = 1 then (s.forgetMark src tag).route .relay p.origin p.opening
  else if p.k = 1 ∧ 2 ≤ p.n ∧ p.n ≤ 3 then s.takeFirstRelay src tag p
  else s.takeLaterRelay src tag p

/-- A reassembly timer expires (R166); a later part of that packet is not counted again. -/
def State.reasmExpired (i : Fin 8) (s : State) : State :=
  match s.fu.reasm[i] with
  | none => s
  | some e => (s.discardReasm i e).markDropped e.src e.tag e.n (e.next - 1)

/-! ## Setup and what others see (R159, R170) -/

/-- The setup routes are installed (R159). -/
def State.installRoutes (r : SetupRecord) (s : State) : State := s.onFu fun f => { f with setupRoutes := setupRoutesOf r }

/-- CLEAR SETUP (R170). -/
def State.clearRoutes (s : State) : State :=
  let s := s.emptyUplink.dropMany .office s.fu.officePending.length
  s.onFu fun f => { f with setupRoutes := [], officePending := [], credit := 0 }

def Forwarding.status (f : Forwarding) : ForwardStatus :=
  { till := f.upTill.length, office := f.upOffice.length, guest := f.upGuest.length, credit := f.credit
    setupRoutes := f.setupRoutes.length, learnedRoutes := f.learnedRoutes.length, pending := f.officePending.length }

end Sys2Proof.Machine
end

