-- ==== Sys2Proof/Machine/Journal.lean ====
section
/-!
DEFINITION. The journal unit (Chapter 8): reservations, groups, upload blocks, acknowledgement, page erase, and
power-on recovery, each a function of the journal unit alone.
-/

namespace Sys2Proof.Machine

/-- The group-closing mark of a record's kind (Table 8-3). -/
def JBody.closes : JBody → Bool
  | .sale _ | .cancel _ | .abandon _ | .recovered _ _ _ => true
  | .line _ | .voidLine _ | .override _ _ _ _ => false

/-- The slot of an unwrapped position. -/
def ringSlot (p : Nat) : Nat := p % 65536

/-- The page of an unwrapped position. -/
def ringPage (p : Nat) : Nat := p / 256 % 256

def JournalUnit.slotAt (j : JournalUnit) (p : Nat) : JSlot := Tbl.get .erased j.slots (ringSlot p)

def JournalUnit.wordAt (j : JournalUnit) (page : Nat) : Option Seq := Tbl.get none j.words page

/-- 256 while a page is ERASING, and 0 otherwise (R144). -/
def JournalUnit.erasingCount (j : JournalUnit) : Nat := if j.erasing.isSome then 256 else 0

/-- The journal low condition (R149). -/
def JournalUnit.low (j : JournalUnit) : Bool := decide (j.free ≤ 3276)

/-! ## Reservations (R145) -/

/-- A reserve request of n records is granted. -/
def JournalUnit.grants (j : JournalUnit) (n : Nat) : Bool := decide (n ≤ j.free)

/-- Reserve n: as granted; refused, no count changes. -/
def JournalUnit.reserve (j : JournalUnit) (n : Nat) : JournalUnit :=
  if n ≤ j.free then { j with free := j.free - n, reserved := j.reserved + n } else j

/-- Release n. No holder releases more than it reserved; the count released is kept within the reserved count. -/
def JournalUnit.release (j : JournalUnit) (n : Nat) : JournalUnit :=
  { j with reserved := j.reserved - min n j.reserved, free := j.free + min n j.reserved }

/-! ## Writing (R143, R147) -/

/-- Write the next page's page word, with the sequence number of the record about to be written, when the tail has
passed slot 255 (R143). -/
def JournalUnit.openPage (j : JournalUnit) : JournalUnit :=
  if j.tailPos % 256 = 0 then { j with words := Tbl.put none j.words (ringPage j.tailPos) (some j.nextSeq) } else j

/-- Write one record at the tail (R147). -/
def JournalUnit.writeRecord (j : JournalUnit) (b : JBody) : JournalUnit :=
  let j := j.openPage
  { j with
    slots := Tbl.put .erased j.slots (ringSlot j.tailPos) (.record { body := b, seq := j.nextSeq } false)
    tailPos := j.tailPos + 1
    nextSeq := j.nextSeq + 1 }

/-- The tail stands at slot 0 of a page whose page word is written, as a power loss between page word and record leaves
it after recovery (R143, R154); the page past the newest one is ERASED, or, the ring being full, ERASING or the oldest. -/
def JournalUnit.tailOpened (j : JournalUnit) : Bool :=
  j.recovered && decide (j.tailPos % 256 = 0) && (j.wordAt (ringPage j.tailPos)).isSome &&
    decide (j.tailPos + j.erasingCount < j.oldest + 65536)

/-- Every whole page between the oldest slot and this position lies behind the head and is not the newest page (R148,
R153). -/
def JournalUnit.vacatedTo (j : JournalUnit) : Nat := min j.head (if j.tailOpened then j.tailPos else j.tailPos - 1)

/-- Begin the erase of the oldest page, if no page is ERASING and the oldest one is vacated (R153). Its 256 slots pass
from the used count to the erasing count. -/
def JournalUnit.startErase (j : JournalUnit) : JournalUnit :=
  if j.erasing.isNone ∧ j.oldest + 256 ≤ j.vacatedTo ∧ 256 ≤ j.used then
    { j with
      erasing := some { page := ringPage j.oldest, ms := 20 }
      oldest := j.oldest + 256
      used := j.used - 256 }
  else j

/-- The records of a group are written, its end record last (R147): the reserved slots become used and the committed
end moves to the tail. The manual lets the tail advance record by record and gives no instants; the tail and the page
states that the status record shows move in this event alone (DESIGN CHOICE, log 57). -/
def JournalUnit.writeGroup (j : JournalUnit) (g : Group) : JournalUnit :=
  let k := min g.bodies.length j.reserved
  let j' := g.bodies.foldl JournalUnit.writeRecord j
  { j' with reserved := j'.reserved - k, used := j'.used + k, cend := j'.tailPos }.startErase

/-- Hand over a group (R147). -/
def JournalUnit.enqueue (j : JournalUnit) (g : Group) : JournalUnit := { j with queue := j.queue ++ [g] }

/-! ## Erase completion (R153, R155) -/

/-- The RECOVERED record that waited for an erased slot is written, ahead of any reservation (R155, step 2). -/
def JournalUnit.payOwed (j : JournalUnit) : JournalUnit :=
  match j.owed with
  | none => j
  | some o =>
    let k := min 1 j.free
    let j' := j.writeRecord (.recovered true o.first o.found)
    { j' with free := j'.free - k, used := j'.used + k, cend := j'.tailPos, owed := none }

/-- The page in erase becomes ERASED (R153). -/
def JournalUnit.clearPage (j : JournalUnit) (page : Nat) : JournalUnit :=
  { j with words := Tbl.put none j.words page none, slots := j.slots.filter fun e => decide (e.1 / 256 ≠ page) }

/-- A page's erase completes: its 256 slots are free, and the next vacated page begins its erase (R153). -/
def JournalUnit.eraseComplete (j : JournalUnit) : JournalUnit :=
  match j.erasing with
  | none => j
  | some e => { j.clearPage e.page with erasing := none, free := j.free + 256 }.payOwed.startErase

/-! ## Upload blocks (R150 to R152) -/

/-- A sequence number lies in the range of `count` numbers from `first` (R151). -/
def seqIn (first : Seq) (count : Nat) (q : Seq) : Bool := decide ((q - first).toNat < count)

/-- The next records from position p on: at most `want`, over at most n slots, void slots passed over; and the position
after the last one taken (`stop` if none is). -/
def JournalUnit.gather (j : JournalUnit) : Nat → Nat → Nat → Nat → List JRecord × Nat
  | 0, _, _, stop => ([], stop)
  | _ + 1, _, 0, stop => ([], stop)
  | n + 1, p, want + 1, stop =>
    match j.slotAt p with
    | .record r _ =>
      let rest := j.gather n (p + 1) want (p + 1)
      (r :: rest.1, rest.2)
    | _ => j.gather n (p + 1) (want + 1) stop

/-- The records held whose sequence numbers lie in a range. Of a RETURNED block some of whose records were acknowledged
meanwhile under other bounds and erased, these are the rest; the manual does not say which it then carries (DESIGN
CHOICE, log 66). -/
def JournalUnit.recordsIn (j : JournalUnit) (first : Seq) (count : Nat) : List JRecord :=
  (j.gather (j.cend - j.oldest) j.oldest 65536 j.oldest).1.filter fun r => seqIn first count r.seq

/-- A block handed to the night link controller: first sequence, count and the records as written. -/
structure HandedBlock where
  first : Seq
  count : Nat
  records : List JRecord
  deriving DecidableEq, Repr

/-- Mark the oldest RETURNED entry SENT again, its tries raised by 1. -/
def resendFirst : List Block → List Block
  | [] => []
  | b :: t => if b.returned then { b with returned := false, tries := b.tries + 1 } :: t else b :: resendFirst t

/-- The next journal block (R150): the block handed, or NONE, and the journal after it. Where only void slots lie
between the read pointer and the committed end, the manual's steps would form a block of no records; the model answers
NONE and leaves the read pointer (log 50). -/
def JournalUnit.nextBlock (j : JournalUnit) : Option HandedBlock × JournalUnit :=
  match j.inflight.find? (·.returned) with
  | some b =>
    (some { first := b.first, count := b.count, records := j.recordsIn b.first b.count },
      { j with inflight := resendFirst j.inflight })
  | none =>
    if 4 ≤ j.inflight.length ∨ j.readPos = j.cend then (none, j)
    else
      match j.gather (j.cend - j.readPos) j.readPos 32 j.readPos with
      | ([], _) => (none, j)
      | (r :: rs, stop) =>
        (some { first := r.seq, count := rs.length + 1, records := r :: rs },
          { j with
            inflight := j.inflight ++ [{ returned := false, first := r.seq, count := rs.length + 1, tries := 1 }]
            readPos := stop })

/-- Write the acknowledgement word of a record. -/
def JSlot.ack : JSlot → JSlot
  | .record r _ => .record r true
  | s => s

def JSlot.inRange (first : Seq) (count : Nat) : JSlot → Bool
  | .record r _ => seqIn first count r.seq
  | _ => false

/-- A slot lies between two positions, the first included. -/
def ringBetween (lo hi slot : Nat) : Bool := decide ((slot + 65536 - ringSlot lo) % 65536 < hi - lo)

/-- The head advances over acknowledged records and void slots, over at most n of them (R151). -/
def JournalUnit.advance (j : JournalUnit) : Nat → Nat → Nat
  | 0, p => p
  | n + 1, p =>
    match j.slotAt p with
    | .record _ true | .void => j.advance n (p + 1)
    | _ => p

/-- A BLOCK ACK taken as one event (R151). -/
def JournalUnit.ack (j : JournalUnit) (first : Seq) (count : Nat) : JournalUnit :=
  let marked := j.slots.map fun e =>
    (e.1, if ringBetween j.head j.cend e.1 && e.2.inRange first count then e.2.ack else e.2)
  let j := { j with
    slots := marked, inflight := j.inflight.filter fun b => !(decide (b.first = first) && decide (b.count = count)) }
  let head := j.advance (j.cend - j.head) j.head
  { j with head := head, readPos := max j.readPos head }.startErase

/-- Return of all blocks (R152). -/
def JournalUnit.returnAll (j : JournalUnit) : JournalUnit := { j with inflight := [], readPos := j.head }

/-- Return of one block (R152): whether the answer is TRY-LIMIT, and the journal after it. -/
def JournalUnit.returnBlock (j : JournalUnit) (first : Seq) (count : Nat) : Bool × JournalUnit :=
  match j.inflight.find? fun b => decide (b.first = first) && decide (b.count = count) with
  | none => (false, j)
  | some b =>
    if b.tries < 3 then
      (false, { j with inflight := j.inflight.map fun b =>
        if b.first = first ∧ b.count = count then { b with returned := true } else b })
    else (true, j.returnAll)

/-! ## Power loss and recovery (R154, R155) -/

/-- A page without page word and with content is the remains of an interrupted erase (R154). -/
def JournalUnit.remains (j : JournalUnit) : Option Nat :=
  (j.slots.find? fun e => (j.wordAt (e.1 / 256)).isNone).map fun e => e.1 / 256

/-- The erase of the remains of an interrupted one, if there are any (R154). -/
def JournalUnit.eraseAnew (j : JournalUnit) : Option PageErase := j.remains.map fun p => { page := p, ms := 20 }

/-- What a power loss leaves of the journal's non-volatile content: of the group being written, its first records and
perhaps a page word or an incomplete record after them; of a page in erase, as far as the erase had come. Everything
volatile is gone, and the remains of an erase are ERASING from here on (R154). What R144 and an ANNOUNCE show of the
other pages from here to the end of the recovery the manual does not say; the model shows them as those of an unwritten
journal (log 49). -/
def JournalUnit.afterCut (j : JournalUnit) (cut : PowerCut) : JournalUnit :=
  let bodies := (j.queue.map (·.bodies)).headD []
  let j1 := (bodies.take cut.groupRecords).foldl JournalUnit.writeRecord j
  let j2 :=
    if bodies.length ≤ cut.groupRecords then j1
    else
      match cut.groupNext with
      | .untouched => j1
      | .pageWord => j1.openPage
      | .incomplete =>
        let j := j1.openPage
        { j with slots := Tbl.put .erased j.slots (ringSlot j.tailPos) .incomplete }
  let j3 :=
    match j2.erasing, cut.page with
    | some e, .wordCleared => { j2 with words := Tbl.put none j2.words e.page none }
    | some e, .allErased => j2.clearPage e.page
    | _, _ => j2
  let erasing := j3.eraseAnew
  { words := j3.words, slots := j3.slots, erasing := erasing, free := 65536 - if erasing.isSome then 256 else 0 }

/-- No page of the run follows page p: the next page has no page word, or its word does not continue p's. -/
def JournalUnit.endsRun (j : JournalUnit) (p : Nat) : Bool :=
  match j.wordAt p, j.wordAt ((p + 1) % 256) with
  | some a, some b => decide (256 < (b - a).toNat)
  | some _, none => true
  | none, _ => false

/-- Page p is the first of the run of pages with a page word. -/
def JournalUnit.beginsRun (j : JournalUnit) (p : Nat) : Bool :=
  (j.wordAt p).isSome && ((j.wordAt ((p + 255) % 256)).isNone || j.endsRun ((p + 255) % 256))

/-- The number of slots of a page up to its last one written. -/
def JournalUnit.writtenIn (j : JournalUnit) (page : Nat) : Nat :=
  (List.range 256).foldl (fun n i => if j.slotAt (page * 256 + i) = .erased then n else i + 1) 0

/-- What a walk of the written slots finds: the position and sequence number of the first record after the last one
that closes a group, the number of such records, and the sequence number of the last complete record. -/
structure Trail where
  first : Option (Nat × Seq) := none
  found : Nat := 0
  last : Option Seq := none
  deriving DecidableEq, Repr

def JournalUnit.trailStep (j : JournalUnit) (t : Trail) (p : Nat) : Trail :=
  match j.slotAt p with
  | .record r _ =>
    if r.body.closes then { last := some r.seq }
    else { first := some (t.first.getD (p, r.seq)), found := t.found + 1, last := some r.seq }
  | _ => t

def JournalUnit.trail (j : JournalUnit) (lo hi : Nat) : Trail :=
  (List.range (hi - lo)).foldl (fun t i => j.trailStep t (lo + i)) {}

/-- The last slot written, if it holds an incomplete record, becomes a void slot (R154). -/
def JournalUnit.voidLast (j : JournalUnit) (tail : Nat) : JournalUnit :=
  if j.slotAt (tail - 1) = .incomplete then { j with slots := Tbl.put .erased j.slots (ringSlot (tail - 1)) .void } else j

/-- An erased slot follows the tail (R155, step 2). -/
def JournalUnit.roomAfter (j : JournalUnit) (tail : Nat) : Bool :=
  decide (j.slotAt tail = .erased) && !(j.erasing.any fun e => decide (e.page = ringPage tail))

/-- The journal with its pages and tail found (R154): `oldest`, `tailPos`, `nextSeq` and the counts set. A page ERASING
since the reset goes on being erased. -/
def JournalUnit.locate (j : JournalUnit) : JournalUnit :=
  let erasing := match j.erasing with | some e => some e | none => j.eraseAnew
  let gone := if erasing.isSome then 256 else 0
  match (List.range 256).find? j.beginsRun, (List.range 256).find? j.endsRun with
  | some f, some n =>
    let oldest := f * 256
    let tail := oldest + (n + 256 - f) % 256 * 256 + j.writtenIn n
    let j := if oldest < tail then j.voidLast tail else j
    let used := min (tail - oldest) (65536 - gone)
    { j with
      erasing := erasing
      oldest := oldest
      tailPos := tail
      nextSeq :=
        match (j.trail oldest tail).last with
        | some q => q + 1
        | none => (j.wordAt n).getD 0
      used := used
      free := 65536 - gone - used }
  | _, _ => { j with erasing := erasing, free := 65536 - gone }

/-- The unfinished trailing group is closed by a RECOVERED record, now or when the first erase completes; the committed
end is set (R155, steps 1 and 2). Where the RECOVERED record is owed, the committed end stands before the group's first
record, behind any older void slot, so that the head passes that slot (R154). With no unfinished group it is set to the
tail, behind a void slot that follows the last end record, where section 8.1 has it follow that record; the manual does
not settle it (DEDUCED, log 58). -/
def JournalUnit.closeTrail (j : JournalUnit) : JournalUnit :=
  let t := j.trail j.oldest j.tailPos
  match t.first with
  | none => { j with cend := j.tailPos }
  | some (p, q) =>
    if j.roomAfter j.tailPos then { j with owed := some { first := q, found := t.found } }.payOwed
    else { j with cend := p, owed := some { first := q, found := t.found } }

/-- Power-on recovery of the journal (R154, R155), from its non-volatile content. -/
def JournalUnit.recover (j : JournalUnit) : JournalUnit :=
  let j := ({ words := j.words, slots := j.slots, erasing := j.erasing } : JournalUnit).locate.closeTrail
  let head := j.advance (j.cend - j.oldest) j.oldest
  { j with head := head, readPos := head, recovered := true }.startErase

/-! ## Values for the status record (R144) -/

/-- The sequence number of the record at a position before the committed end (R144). At the committed end there is
none; the manual does not say what a head there shows (log 48). -/
def JournalUnit.seqAt (j : JournalUnit) (p : Nat) : Option Seq :=
  match j.slotAt p with
  | .record r _ => if p < j.cend then some r.seq else none
  | _ => none

/-- The number of FULL pages that await erase (R144). -/
def JournalUnit.awaiting (j : JournalUnit) : Nat := (j.vacatedTo - j.oldest) / 256

def JournalUnit.status (j : JournalUnit) : JournalStatus :=
  let full := (j.tailPos - j.oldest) / 256
  let writing := if j.tailPos % 256 = 0 ∧ j.tailOpened = false then 0 else 1
  let erasing := if j.erasing.isSome then 1 else 0
  { used := j.used, reserved := j.reserved, free := j.free, erasing := j.erasingCount
    head := ringSlot j.head, tail := ringSlot j.tailPos
    headSeq := j.seqAt j.head
    endSeq := match j.owed with | some o => o.first | none => j.nextSeq
    pagesErased := 256 - full - writing - erasing, pagesWriting := writing, pagesFull := full, pagesErasing := erasing
    awaiting := j.awaiting, low := j.low }

/-- Entry i of record bank 0x20 (R156). -/
def JournalUnit.readEntry (j : JournalUnit) (i : Nat) : ReadEntry :=
  if i < 65535 ∧ j.head + i < j.cend then
    match j.slotAt (j.head + i) with
    | .record r acked => .journal r r.body.closes acked
    | _ => .absent
  else .absent

end Sys2Proof.Machine
end

