-- ==== Sys2Proof/Machine/Labels.lean ====
section
/-!
DEFINITION. The label radio controller (Chapter 7): wakes and what is sent at them, answers, the review walk, sweeps,
the table build, and the radio's start and stop, each a function of the controller, the active bank and the price
generation.
-/

namespace Sys2Proof.Machine

/-! ## The label table (R124) -/

def LabelRadio.label (l : LabelRadio) (i : Nat) : LabelEntry := Tbl.get {} l.labels i

def LabelRadio.setLabel (l : LabelRadio) (i : Nat) (e : LabelEntry) : LabelRadio :=
  { l with labels := Tbl.put {} l.labels i e }

/-- Change every entry that is not the entry of an unlisted label. -/
def LabelRadio.mapLabels (l : LabelRadio) (f : LabelEntry → LabelEntry) : LabelRadio :=
  { l with labels := Tbl.update {} (fun _ e => f e) l.labels (Tbl.keys l.labels) }

/-- The number of entries, of the 4,096, with a property that the UNBOUND entry of an unlisted label lacks. -/
def LabelRadio.countOf (l : LabelRadio) (p : LabelEntry → Bool) : Nat := (l.labels.filter fun e => p e.2).length

/-- A label is STALE. -/
def LabelRadio.anyStale (l : LabelRadio) : Bool := l.labels.any fun e => decide (e.2.state = .stale)

/-! ## Wakes (R125 to R128) -/

/-- The wake class a record gives its label (R124). -/
def ItemRecord.wakeClass (r : ItemRecord) : LabelClass := r.labelClass.getD .slow

/-- The comparison price of a record (R109). -/
def ItemRecord.comparison (r : ItemRecord) : Option Nat :=
  match r.basis, r.packSize with
  | .each, some p => some (min (roundDiv (r.unitPrice * 1000) p).toNat 9999999)
  | _, _ => none

/-- The display content of a record (R128). -/
def ItemRecord.content (r : ItemRecord) : DisplayContent :=
  { unitPrice := r.unitPrice, basis := r.basis, comparison := r.comparison, promotion := r.promotion
    description := r.description }

/-- The number of wake slots in a cycle (R125). -/
def LabelRadio.slotCount (l : LabelRadio) : Nat := l.slots.getD 512

/-- The slot of label i's place (R125). -/
def labelSlot (slots i : Nat) : Nat := i % slots

/-- The exchange position of label i's place in its slot (R125). -/
def labelPosition (slots i : Nat) : Nat := i / slots

/-- The place of label i, counted in exchange positions from the start of the cycle, 8 to a slot (R125). -/
def labelPlace (slots i : Nat) : Nat := 8 * labelSlot slots i + labelPosition slots i

/-- Label i's place in this cycle is still to come: it lies after that of the last wake taken (log 28). -/
def LabelRadio.due (l : LabelRadio) (i : Nat) : Bool := l.placed.all fun p => decide (p < labelPlace l.slotCount i)

/-- Label i has a wake at its place in cycle c (R126). -/
def LabelEntry.wakes (e : LabelEntry) (i c k : Nat) : Bool :=
  decide (e.state ≠ .unbound) &&
    (decide (e.wakeClass = .fast) || decide ((c + i) % k = 0) || decide (0 < e.stayFast))

/-- What is sent at a wake (Table 7-4). -/
inductive WakeSend where
  | nothing
  | ping
  | display
  deriving DecidableEq, Repr

/-- What is sent at a wake, and the entry with its wake count (R126, R127, Table 7-4). -/
def LabelEntry.atWake (e : LabelEntry) (gen : Nat) : WakeSend × LabelEntry :=
  match e.state with
  | .unbound | .review => (.nothing, e)
  | .unchecked => (.ping, e)
  | .stale => (.display, e)
  | .current =>
    if e.failCount = 0 ∧ e.wakeCount + 1 < 16 then (.nothing, { e with wakeCount := e.wakeCount + 1 })
    else (.ping, { e with wakeCount := 0 })
  | .unreachable =>
    if e.wakeCount + 1 < 64 then (.nothing, { e with wakeCount := e.wakeCount + 1 })
    else if e.blankPending || decide (e.confirmed ≠ some gen) then (.display, { e with wakeCount := 0 })
    else (.ping, { e with wakeCount := 0 })

/-- The rebase a PING carries (R128). -/
def LabelEntry.rebase (e : LabelEntry) : Option (Nat × Nat) :=
  match e.shown, e.confirmed with
  | some a, some b => if a = b then none else some (a, b)
  | _, _ => none

/-- The content of a DISPLAY, from the record at the bound position of the active bank; none for a blank (R128). -/
def LabelEntry.displayed (e : LabelEntry) (bank : Option Bank) : Option DisplayContent :=
  if e.blankPending then none
  else
    match bank, e.position with
    | some b, some p => b.records[p]?.map ItemRecord.content
    | _, _ => none

/-- The place of label i is taken; no wake of this cycle follows at that place or before it (R125). -/
def LabelRadio.place (l : LabelRadio) (i : Nat) : LabelRadio := { l with placed := some (labelPlace l.slotCount i) }

/-- The place of label i has come, the radio running (R127, R128): the message sent, if any. -/
def LabelRadio.wake (l : LabelRadio) (bank : Option Bank) (gen i : Nat) : Option LabelMsg × LabelRadio :=
  let e := l.label i
  let l := l.place i
  if e.wakes i l.cycle (l.period.getD 2) then
    let l' := l.setLabel i (e.atWake gen).2
    match (e.atWake gen).1 with
    | .nothing => (none, l')
    | .ping =>
      (some (.ping i e.rebase), { l' with exchange := some { label := i, display := false, blank := false, gen := gen } })
    | .display =>
      (some (.display i gen (e.displayed bank)),
        { l' with exchange := some { label := i, display := true, blank := e.blankPending, gen := gen } })
  else (none, l)

/-! ## Answers (R129 to R132, R136) -/

/-- What every ACK records (R129, R130, R132, R136). -/
def LabelEntry.heard (e : LabelEntry) (a : LabelAck) : LabelEntry :=
  { e with shown := some a.shown, batteryLow := a.batteryLow, displayFault := a.displayFault, failCount := 0 }

/-- STALE with no confirmed generation; stay-fast stays only with a label that was STALE (R124, R137). -/
def LabelEntry.madeStale (e : LabelEntry) : LabelEntry := { e with state := .stale, confirmed := none }

/-- CURRENT at a generation. -/
def LabelEntry.madeCurrent (e : LabelEntry) (gen : Nat) : LabelEntry :=
  { e with state := .current, confirmed := some gen, wakeCount := 0, stayFast := 0 }

/-- UNBOUND after a blank was taken (R136). -/
def LabelEntry.madeUnbound (e : LabelEntry) : LabelEntry :=
  { e with state := .unbound, blankPending := false, stayFast := 0, wakeCount := 0, confirmed := none }

/-- An ACK of an exchange (R129, R130, R132, R136). -/
def LabelEntry.acked (e : LabelEntry) (x : Exchange) (a : LabelAck) (gen : Nat) : LabelEntry :=
  let h := e.heard a
  if x.gen ≠ gen then
    if e.state = .review then { h with confirmed := none } else h.madeStale
  else if a.shown = gen ∧ a.displayFault = false then
    if x.display && x.blank then h.madeUnbound else h.madeCurrent gen
  else h.madeStale

/-- An exchange of a label ends with no answer (R131, R132). -/
def LabelEntry.missed (e : LabelEntry) : LabelEntry :=
  let fails := min (e.failCount + 1) 6
  match e.state with
  | .stale | .unchecked | .current =>
    if fails = 6 then { e with failCount := fails, state := .unreachable, wakeCount := 0, stayFast := 0 }
    else { e with failCount := fails }
  | .unbound | .review | .unreachable => { e with failCount := fails }

/-- The exchange in progress ends with no answer. -/
def LabelRadio.noAnswer (l : LabelRadio) : LabelRadio :=
  match l.exchange with
  | none => l
  | some x => { l.setLabel x.label (l.label x.label).missed with exchange := none }

/-- An answer is taken; one that fails its check or names another label is taken as unanswered (R128). -/
def LabelRadio.answer (l : LabelRadio) (a : LabelAck) (gen : Nat) : LabelRadio :=
  match l.exchange with
  | none => l
  | some x =>
    if a.checkOk && decide (a.label = x.label) then
      { l.setLabel x.label ((l.label x.label).acked x a gen) with exchange := none }
    else l.noAnswer

/-! ## Sweeps (R137, R138) -/

def LabelEntry.noStayFast (e : LabelEntry) : LabelEntry := { e with stayFast := 0 }

/-- A sweep ends: ROLLING, pass count 0, every stay-fast 0 (R133, R138, R140). -/
def LabelRadio.endSweep (l : LabelRadio) : LabelRadio :=
  { l.mapLabels LabelEntry.noStayFast with sweep := false, passCount := 0, passOn := false }

/-- Entry to SWEEP at a walk's end; the mode stays ROLLING while the radio is stopped (R137). -/
def LabelRadio.enterSweep (l : LabelRadio) : LabelRadio :=
  if l.running then
    { l.mapLabels (fun e =>
        { e with stayFast := if e.state = .stale ∧ e.wakeClass = .slow then 4 else 0 }) with
      sweep := true, passCount := 0, passOn := false }
  else { l with sweep := false, passCount := 0, passOn := false }

/-- The end of a pass (R138). -/
def LabelRadio.passEnd (l : LabelRadio) : LabelRadio :=
  let l := { l.mapLabels (fun e => { e with stayFast := e.stayFast - 1 }) with passCount := l.passCount + 1 }
  if !l.anyStale || decide (4 ≤ l.passCount) then l.endSweep else l

/-- The length of a cycle in ms (R125). -/
def LabelRadio.cycleLength (l : LabelRadio) : Nat := l.slotCount * 20

/-- The end of a cycle (R125, R138): the cycle number rises by 1, returning to 0 after 4,294,967,295; the end of a pass
is in the same event; the next cycle is a pass if it begins in SWEEP. -/
def LabelRadio.cycleEnd (l : LabelRadio) : LabelRadio :=
  if l.running then
    let l := { l with cycle := (l.cycle + 1) % 4294967296, cycleMs := l.cycleLength, placed := none }
    let l := if l.passOn then l.passEnd else l
    { l with passOn := l.sweep }
  else l

/-! ## The table build, start and stop (R125, R139, R140) -/

/-- Bind every label a bank's records carry, as UNCHECKED (R139). -/
def bindRecords (t : Tbl LabelEntry) (rs : List ItemRecord) : Tbl LabelEntry :=
  rs.zipIdx.foldl (fun t e =>
    match e.1.labelIndex with
    | some l => Tbl.put {} t l { state := .unchecked, position := some e.2, wakeClass := e.1.wakeClass }
    | none => t) t

/-- The table build from the active bank (R139). -/
def LabelRadio.build (l : LabelRadio) (bank : Option Bank) : LabelRadio :=
  { l with
    labels := bindRecords [] ((bank.map Bank.records).getD [])
    cycle := 0, sweep := false, passCount := 0, passOn := false, review := none, exchange := none, placed := none }

/-- The radio runs from slot 0 of cycle 0 with the S and k of setup (R125, R140). -/
def LabelRadio.startRadio (l : LabelRadio) (r : SetupRecord) : LabelRadio :=
  { l with
    running := true, cycle := 0, cycleMs := clampSlots r.slots * 20
    slots := some (clampSlots r.slots), period := some (clampPeriod r.period)
    slotsClamped := decide (clampSlots r.slots ≠ r.slots), periodClamped := decide (clampPeriod r.period ≠ r.period)
    exchange := none, placed := none }

/-- A start after the first build (R140): the table is built again and the radio runs; with a review running, the
build and the start wait for the walk's end. -/
def LabelRadio.restart (l : LabelRadio) (bank : Option Bank) (r : SetupRecord) : LabelRadio :=
  match l.review with
  | some v => { l with review := some { v with rebuild := true } }
  | none => (l.build bank).startRadio r

/-- The radio stops (R140): the exchange is abandoned, a sweep ends, the cycle number is held. The manual does not say
what R141 then shows as the S and k in use; the last values stay (log 46). -/
def LabelRadio.stop (l : LabelRadio) : LabelRadio := { l.endSweep with running := false, exchange := none }

/-! ## The review (R133 to R135) -/

/-- A review starts, step 4 of a switchover (R133). -/
def LabelRadio.startReview (l : LabelRadio) (old : Option BankNo) (new : BankNo) : LabelRadio :=
  let l := if l.sweep then l.endSweep else l
  { l.mapLabels (fun e => if e.state = .unbound then e else { e with state := .review }) with
    review := some { oldBank := old, newBank := new, ms := 100, rebuild := false } }

/-- A verdict of the walk (R134), with the position and the record of the new bank where it names one. -/
inductive Verdict where
  | kept (position : Nat) (r : ItemRecord)
  | fresh (position : Nat) (r : ItemRecord)
  | blank
  | none
  deriving DecidableEq, Repr

/-- The record of a bank that carries a label index, with its position. -/
def carrierOf (rs : List ItemRecord) (i : Nat) : Option (Nat × ItemRecord) :=
  (rs.zipIdx.find? fun e => decide (e.1.labelIndex = some i)).map fun e => (e.2, e.1)

/-- The old bank holds a record that keeps label i for the new record r (R134, KEPT). -/
def keptBy (old : Option Bank) (i : Nat) (r : ItemRecord) : Bool :=
  old.any fun b =>
    b.records.any fun o => decide (o.code = r.code) && decide (o.labelIndex = some i) && decide (o.content = r.content)

/-- The verdict on label i (R134). -/
def verdictOf (old : Option Bank) (new : Bank) (i : Nat) (e : LabelEntry) : Verdict :=
  match carrierOf new.records i with
  | some (p, r) => if keptBy old i r then .kept p r else .fresh p r
  | none => if e.state = .review then .blank else .none

/-- A label whose fail count is 6 becomes UNREACHABLE in place of the state a row of Table 7-5 shows (R135). -/
def LabelEntry.orUnreachable (e : LabelEntry) : LabelEntry :=
  if e.failCount = 6 then { e with state := .unreachable, wakeCount := 0 } else e

/-- A label's binding as a verdict that names a record of the new bank gives it (R135). -/
def LabelEntry.bound (e : LabelEntry) (p : Nat) (r : ItemRecord) : LabelEntry :=
  { e with position := some p, wakeClass := r.wakeClass, blankPending := false }

/-- Apply a verdict (Table 7-5): `oldGen` is the old bank's seal generation, `gen` the new price generation. -/
def LabelEntry.verdict (e : LabelEntry) (v : Verdict) (oldGen : Option Nat) (gen : Nat) : LabelEntry :=
  match v with
  | .none => e
  | .kept p r =>
    if e.confirmed.isSome && decide (e.confirmed = oldGen) then
      { e.bound p r with state := .current, wakeCount := 0, confirmed := some gen }.orUnreachable
    else { e.bound p r with state := .stale, confirmed := none }.orUnreachable
  | .fresh p r => { e.bound p r with state := .stale, confirmed := none }.orUnreachable
  | .blank =>
    { e with
      position := none, wakeClass := .slow, blankPending := true, state := .stale, confirmed := none }.orUnreachable

/-- The labels a walk may change: those listed and those the new bank carries. -/
def walkKeys (t : Tbl LabelEntry) (new : Bank) : List Nat :=
  Flags.merge (Tbl.keys t) (new.records.filterMap ItemRecord.labelIndex)

/-- The walk ends and its verdicts are applied in one event (R135). -/
def LabelRadio.applyVerdicts (l : LabelRadio) (old : Option Bank) (new : Bank) (gen : Nat) : LabelRadio :=
  let oldGen := old.map Bank.sealGen
  { l with
    labels := Tbl.update {} (fun i e => e.verdict (verdictOf old new i e) oldGen gen) l.labels (walkKeys l.labels new) }

/-- The end of the review walk (R135, R137, R140). -/
def LabelRadio.walkEnd (l : LabelRadio) (i : ItemStore) (setup : Option SetupRecord) : LabelRadio :=
  match l.review with
  | none => l
  | some v =>
    if v.rebuild then
      match setup with
      | some r => (l.build i.activeBank).startRadio r
      | none => l.build i.activeBank
    else
      { l.applyVerdicts (v.oldBank.map i.bank) (i.bank v.newBank) i.gen with review := none }.enterSweep

/-! ## What others see (R141, R142) -/

def LabelRadio.unreachable (l : LabelRadio) : Nat := l.countOf fun e => decide (e.state = .unreachable)

def LabelRadio.status (l : LabelRadio) : LabelStatus :=
  let n (st : LabelState) : Nat := l.countOf fun e => decide (e.state = st)
  { unbound := 4096 - l.countOf fun e => decide (e.state ≠ .unbound)
    unchecked := n .unchecked, review := n .review, stale := n .stale, current := n .current
    unreachable := l.unreachable
    batteryLow := l.countOf LabelEntry.batteryLow
    displayFault := l.countOf LabelEntry.displayFault
    owedBlank := l.countOf LabelEntry.blankPending
    slotsClamped := l.slotsClamped, periodClamped := l.periodClamped }

/-- The item code at a label's bound position (R141), read in the active bank. The manual does not say whose record is
meant while the label is in REVIEW, when the position is still one of the bank before (log 45). -/
def LabelEntry.itemCode (e : LabelEntry) (bank : Option Bank) : Option Nat :=
  match bank, e.position with
  | some b, some p => b.records[p]?.map ItemRecord.code
  | _, _ => none

/-- Entry i of record bank 0x10 (R141). The manual does not say what the controller entry shows as label channel while
the station is UNSET and the radio stopped; the model shows none (DESIGN CHOICE, log 55). -/
def LabelRadio.readEntry (l : LabelRadio) (bank : Option Bank) (channel : Option Nat) (i : Nat) : ReadEntry :=
  if i < 4096 then .label (l.label i) ((l.label i).itemCode bank)
  else if i = 65535 then
    .labelControl { running := l.running, sweep := l.sweep, passCount := l.passCount, review := l.review.isSome
                    cycle := l.cycle, slots := l.slots, period := l.period
                    slotsClamped := l.slotsClamped, periodClamped := l.periodClamped, channel := channel }
  else .absent

end Sys2Proof.Machine
end

