-- ==== Sys2Proof/Machine/Switch.lean ====
section
/-!
DEFINITION. The switchover as the whole station sees it (R14, R15), the FAULT pin (R207), and the record-read window
with the status record (R206).
-/

namespace Sys2Proof.Machine

/-! ## Switchover (R14, R15) -/

/-- The bank whose switchover is due, if one is (R14); of two SEALED banks that are due, bank 0 (log 29). -/
def State.switchoverDue (s : State) : Option BankNo :=
  if s.is.recovered && s.lrc.review.isNone then
    (fins 2).find? fun b => decide ((s.is.bank b).state = .sealed) && (s.is.bank b).effective s.stamp
  else none

/-- The PRICE NOTICE of a generation (R43). -/
def noticeFrame (gen : Nat) : Frame := { dest := .broadcast, tag := 0, payload := .priceNotice gen }

/-- A switchover to bank b, its five steps in one event (R15). -/
def State.switchTo (b : BankNo) (s : State) : State :=
  let old := s.is.selected
  let s := s.onIs fun i => i.switchTo b
  let s := s.onLrc fun l => l.startReview old b
  s.handOver (noticeFrame s.is.gen)

/-- The item store performs a switchover at the first moment it is due (R14). -/
def State.switchIfDue (s : State) : State :=
  match s.switchoverDue with
  | some b => s.switchTo b
  | none => s

/-! ## FAULT (R207) -/

def State.faultCauses (s : State) : FaultCauses :=
  { recovering := !(s.is.recovered && s.ju.recovered), unset := !s.isSet, duplicate := s.tp.trunk.isDuplicate
    journalLow := s.ju.low, torn := s.is.anyTorn }

/-- The FAULT pin (R207). -/
def State.faultPin (s : State) : Bool :=
  let c := s.faultCauses
  c.recovering || c.unset || c.duplicate || c.journalLow || c.torn

/-! ## The status record (R206, Table 12-2) -/

/-- DONE of the upload (R199). -/
def State.uploadDone (s : State) : Bool :=
  decide (s.ju.readPos = s.ju.cend) && s.ju.inflight.isEmpty && s.nlc.activity.isEmpty && decide (s.nlc.cursor = 8192)

def State.nightStatus (s : State) : NightStatus :=
  { session := s.nlc.session, carrier := s.nlc.carrier, served := s.nlc.served, hold := s.nlc.holdMs.isSome
    upload := s.nlc.upload, done := s.uploadDone, journalBlocks := s.ju.inflight.length
    activityBlocks := s.nlc.activity.length, sendList := s.nlc.sendList.length }

def State.counters (s : State) : Counters :=
  { badFrames := s.tp.badFrames, collisions := s.tp.collisions, duplicateEntries := s.tp.duplicateEntries
    droppedTill := s.fu.droppedTill
    droppedGuest := bumpBy s.tp.guestDropped (s.fu.guestDropped + s.gu.guestDropped)
    droppedOffice := s.fu.droppedOffice, noCarrier := s.fu.noCarrier
    lostSnapshots := s.is.lostSnapshots, lostTransfers := s.bu.lostTransfers
    codesNotIssued := s.gu.notIssued, codesNotReturned := s.gu.notReturned
    nightDropped := s.nlc.dropped, callsFailed := s.nlc.callsFailed, sessionsOpened := s.nlc.sessionsOpened
    readsDropped := s.sc.readsDropped }

/-- The status record (R206). Before the item store's recovery has ended the manual does not say what it shows of the
banks: it shows what their words read as then, so that a last record wholly written and not yet read makes its bank TORN
(DESIGN CHOICE, log 39). -/
def State.status (s : State) : StatusRecord :=
  { set := s.isSet, trunk := s.tp.trunk
    clock := s.sc.clock, clockState := s.sc.clockState, dayMark := s.sc.dayMark
    gen := s.is.gen, bank0 := (s.is.bank 0).state, bank1 := (s.is.bank 1).state
    journal := s.ju.status, labels := s.lrc.status, guests := s.gu.status, forward := s.fu.status
    night := s.nightStatus
    slotsClamped := s.lrc.slotsClamped, periodClamped := s.lrc.periodClamped, shareClamped := s.sc.shareClamped
    fault := s.faultCauses, counters := s.counters }

/-! ## Record reads (R24, R25, R46, R122, R206) -/

/-- A park entry as record bank 0x50 shows it (R122). -/
def State.parkView (s : State) (j : ParkNo) : ParkView :=
  let e := s.bu.park[j]
  { state := e.state
    ticket := if e.state = .free then none else some (ticketOf s.stn j)
    origin := e.content.map ParkContent.origin, cashier := e.content.map ParkContent.cashier
    parked := e.content.bind ParkContent.parked, lineCount := e.content.map fun c => c.lines.length
    held := e.held, requester := e.requester, abandonPending := e.abandonPending }

/-- One entry of a record-read bank. -/
def State.readEntry (s : State) (bank i : Nat) : ReadEntry :=
  match bank with
  | 0x00 | 0x01 | 0x02 | 0x03 => s.is.readEntry (Config.wordsStand s.freeIdx) bank i
  | 0x10 => s.lrc.readEntry s.is.activeBank (s.sc.page.map SetupRecord.channel) i
  | 0x20 => s.ju.readEntry i
  | 0x30 => s.clientEntry i
  | 0x31 => s.codeEntry i
  | 0x40 => if h : i < 16 then .peer s.tp.peers[i] else .absent
  | 0x50 => if h : i < 16 then .park (s.parkView ⟨i, h⟩) else .absent
  | 0x60 =>
    if i = 0 then .status s.status
    else if i = 1 then
      match s.sc.page with
      | some r => .setup r
      | none => .absent
    else .absent
  | _ => .absent

/-- A read of n entries from index i, the index counting on from 65,535 to 0; a count above 16 is taken as 16 (R25,
R206). -/
def State.readEntries (s : State) (bank i n : Nat) : List ReadEntry :=
  (List.range (min n 16)).map fun k => s.readEntry bank ((i + k) % 65536)

/-- A read needs a recovery that has not ended (section 1.7, section 8.6). Bank 0x10 shows no part of the item store:
before the table is built it is answered at once, every label UNBOUND (log 47). -/
def State.readWaits (s : State) (bank : Nat) : Bool :=
  (decide (bank ≤ 3) && !s.is.recovered) || (decide (bank = 0x20) && !s.ju.recovered)

/-- Hand a RECORDS frame; one refused is kept pending (R206). -/
def State.sendRecords (f : Frame) (s : State) : State :=
  if s.handResult f = .placed then s.handOver f
  else ((s.handOver f).onSc fun c => { c with pendingRecords := c.pendingRecords ++ [f] }).recordC f

/-- A READ RECORDS frame (R206). -/
def State.answerRead (src : Station) (tag bank i n : Nat) (s : State) : State :=
  if 4 ≤ s.sc.pendingRecords.length then s.onSc fun c => { c with readsDropped := bump c.readsDropped }
  else (s.sendRecords (frameTo src tag (.records (s.readEntries bank i n)))).spend

/-- Room is offered to station control (R206): the oldest pending RECORDS is handed. -/
def State.offerControl (s : State) : State :=
  match s.sc.pendingRecords with
  | [] => s
  | f :: rest =>
    if s.handResult f = .placed then (s.handOver f).onSc fun c => { c with pendingRecords := rest } else s.handOver f

/-- RECORDS frames withdrawn at entry to DUPLICATE join the pending ones; each that finds 4 waiting is discarded and
counted (R206). -/
def State.returnRecords : List Frame → State → State
  | [], s => s
  | f :: rest, s =>
    if s.sc.pendingRecords.length < 4 then
      (s.onSc fun c => { c with pendingRecords := c.pendingRecords ++ [f] }).returnRecords rest
    else (s.onSc fun c => { c with readsDropped := bump c.readsDropped }).returnRecords rest

end Sys2Proof.Machine
end

