-- ==== Sys2Proof/Machine/Night.lean ====
section
/-!
DEFINITION. The night link controller (Chapter 11): the session with head office, night messages on the trunk and
their relay, orders and reads, and the upload of journal and activity.
-/

namespace Sys2Proof.Machine

/-- A night message is discarded and counted. -/
def State.dropNight (s : State) : State := s.onNlc fun n => { n with dropped := bump n.dropped }

/-! ## Messages to head office (R157, R195) -/

/-- The packet that carries a night message (log 10). -/
def nightPacket (r : SetupRecord) (m : NightMsg) : Packet :=
  { src := r.stationAddr, dst := r.officeAddr, len := max 20 (min 1500 (Config.nightLength m)), body := .night m }

/-- Hand a message to the forwarding unit as an OFFICE packet. -/
def State.toOffice (m : NightMsg) (s : State) : State :=
  match s.sc.page with
  | none => s
  | some r => s.route .office .office (nightPacket r m)

/-- A message for head office is forwarded while the session is OPEN or CLOSING, and otherwise discarded and counted
(R195, R196). -/
def State.forwardOffice (m : NightMsg) (s : State) : State :=
  if s.nlc.session.holdsCredit then s.toOffice m else s.dropNight

/-- The station judges itself carrier. -/
def State.judgedSelf (s : State) : Bool := decide (s.nlc.carrier = some s.stn)

/-! ## The send list (R194) -/

/-- The parts a message travels as: a BLOCK ACK is one frame (R194, log 10). -/
def NightMsg.parts (m : NightMsg) : Nat :=
  match m with
  | .ackJournal _ _ _ | .ackActivity _ _ => 1
  | _ => max 1 (min 64 (Config.officeParts m))

/-- A message of the send list bound for head office (R193). -/
def NightMsg.boundForOffice : NightMsg → Bool
  | .orderResult _ _ _ | .records _ _ _ | .journalBlock _ _ _ _ | .activityBlock _ _ _ _ => true
  | .sessionOpen _ _ _ _ | .sessionAccept _ | .sessionEnd | .order _ _ _ _ | .read _ _ _ _ _ | .ackJournal _ _ _
  | .ackActivity _ _ => false

def NightMsg.isBlock : NightMsg → Bool
  | .journalBlock _ _ _ _ | .activityBlock _ _ _ _ => true
  | _ => false

def NightMsg.isReport : NightMsg → Bool
  | .orderResult _ _ _ | .records _ _ _ => true
  | _ => false

/-- The frame of a message's next part. -/
def SendEntry.frame (e : SendEntry) : Frame :=
  match e.msg with
  | .ackJournal _ first count => frameTo e.dest e.tag (.blockAck (.journal first count))
  | .ackActivity _ number => frameTo e.dest e.tag (.blockAck (.activity number))
  | m => frameTo e.dest e.tag (.office m e.next e.n)

/-- Hand the oldest message's next part (R194); a message leaves the list when its last part is placed. -/
def State.handNight (s : State) : State :=
  match s.nlc.sendList with
  | [] => s
  | e :: rest =>
    if s.handResult e.frame = .placed then
      (s.handOver e.frame).onNlc fun n =>
        { n with sendList := if e.n ≤ e.next then rest else { e with next := e.next + 1 } :: rest }
    else s.handOver e.frame

/-- The oldest message's next part is placed if it is handed now. -/
def State.nightFits (s : State) : Bool :=
  match s.nlc.sendList with
  | [] => false
  | e :: _ => decide (s.handResult e.frame = .placed)

/-- Hand parts in list order until one is refused; the refusal is put on record (R34, R194). At most 32 parts find
room. -/
def State.flushFor : Nat → State → State
  | 0, s => s
  | k + 1, s =>
    match s.nlc.sendList with
    | [] => s
    | e :: _ => if s.nightFits then s.handNight.flushFor k else s.recordC e.frame

/-- Hand what the send list holds, unless a part of it waits for room already. -/
def State.flushNight (s : State) : State := if s.onRecord .night then s else s.flushFor 33

/-- A message joins the send list, or is discarded and counted when it holds 32 (R194, R195). -/
def State.addSend (m : NightMsg) (dst : Station) (tag : Nat) (s : State) : State :=
  if 32 ≤ s.nlc.sendList.length then s.dropNight
  else
    (s.onNlc fun n =>
      { n with sendList := n.sendList ++ [{ msg := m, dest := dst, tag := tag, n := m.parts, next := 1 }] }).flushNight

/-! ## Upload (R197 to R200) -/

/-- Send a block: to the send list, or, at the carrier, straight to the forwarding unit (R194, section 11.5).
Its tag is the night message number as it stood before it rises for this block, so that the first after reset is tagged
0; the manual does not say (DESIGN CHOICE, log 80). -/
def State.sendBlock (m : NightMsg) (s : State) : State :=
  let tag := s.nlc.msgNo
  let s := s.onNlc fun n => { n with msgNo := next256 n.msgNo }
  if s.judgedSelf then s.toOffice m
  else
    match s.nlc.carrier with
    | some c => s.addSend m c tag
    | none => s.dropNight

def BlockTimer.isFor (first : Seq) (count : Nat) (t : BlockTimer) : Bool :=
  decide (t.first = first) && decide (t.count = count)

/-- A journal block's 30 s timer starts (R198). -/
def NightLink.startTimer (first : Seq) (count : Nat) (n : NightLink) : NightLink :=
  { n with
    blockTimers := (n.blockTimers.filter fun t => !t.isFor first count) ++ [{ first := first, count := count, ms := 30000 }] }

def NightLink.stopTimer (first : Seq) (count : Nat) (n : NightLink) : NightLink :=
  { n with blockTimers := n.blockTimers.filter fun t => !t.isFor first count }

/-- A position lies in the range of a held entry (R199). -/
def NightLink.covers (n : NightLink) (p : Nat) : Bool :=
  n.activity.any fun e => decide (e.first ≤ p) && decide (p ≤ e.last)

/-- Change the oldest RETURNED entry. -/
def onReturned (f : ActivityEntry → Option ActivityEntry) : List ActivityEntry → List ActivityEntry
  | [] => []
  | e :: t => if e.returned then (match f e with | some x => x :: t | none => t) else e :: onReturned f t

/-- An activity block message of positions of the active bank. -/
def State.activityMsg (s : State) (number : Nat) (ps : List Nat) : NightMsg :=
  .activityBlock s.stn number s.is.gen (s.is.codesAt ps)

/-- One request for an activity block (R199): a RETURNED entry again, or a new block, or the cursor to the end. -/
def State.activityStep (s : State) : State :=
  match s.nlc.activity.find? (·.returned) with
  | some e =>
    match s.is.activityFrom e.first e.last fun _ => false with
    | [] => s.onNlc fun n => { n with activity := onReturned (fun _ => none) n.activity }
    | p :: ps =>
      (s.onNlc fun n =>
        { n with
          activity := onReturned (fun x =>
            some { x with
              returned := false, positions := p :: ps, gen := s.is.gen, tries := x.tries + 1, ms := 30000 })
            n.activity }).sendBlock (s.activityMsg e.number (p :: ps))
  | none =>
    match s.is.activityFrom s.nlc.cursor 8191 s.nlc.covers with
    | [] => s.onNlc fun n => { n with cursor := 8192 }
    | p :: ps =>
      let last := (p :: ps).getLast?.getD p
      (s.onNlc fun n =>
        { n with
          activity := n.activity ++ [{ returned := false, number := n.blockNo, first := n.cursor, last := last
                                       positions := p :: ps, gen := s.is.gen, tries := 1, ms := 30000 }]
          blockNo := next256 n.blockNo
          cursor := last + 1 }).sendBlock (s.activityMsg s.nlc.blockNo (p :: ps))

/-- There is more to ask of the item store (R199). -/
def State.moreActivity (s : State) : Bool :=
  s.nlc.activity.any (·.returned) || (decide (s.nlc.activity.length < 4) && decide (s.nlc.cursor < 8192))

/-- A sending opportunity (R197): journal blocks until NONE, then, with none in flight, activity blocks. At most 4
journal blocks and 4 activity blocks are in flight, and an opportunity removes at most 4 activity entries, so 16 steps
exhaust it. Before the journal's recovery it takes no request (section 8.6), and the opportunity waits for the
recovery's end (DEDUCED, log 35). -/
def State.opportunityFor : Nat → State → State
  | 0, s => s
  | k + 1, s =>
    if s.nlc.upload ≠ .uploading ∨ 32 ≤ s.nlc.sendList.length ∨ s.ju.recovered = false then s
    else
      match s.ju.nextBlock with
      | (some b, j) =>
        (((s.onJu fun _ => j).onNlc (NightLink.startTimer b.first b.count)).sendBlock
          (.journalBlock s.stn b.first b.count b.records)).opportunityFor k
      | (none, _) => if s.ju.inflight.isEmpty && s.moreActivity then s.activityStep.opportunityFor k else s

def State.opportunity (s : State) : State := s.opportunityFor 16

/-- What leaving UPLOADING does (R200), and SUSPENDED's entry (R198). -/
def NightLink.dropBlocks (n : NightLink) : NightLink :=
  { n with blockTimers := [], activity := [], cursor := 0, sendList := n.sendList.filter fun e => !e.msg.isBlock }

def State.returnAllBlocks (s : State) : State := (s.onJu JournalUnit.returnAll).onNlc NightLink.dropBlocks

/-- UPLOADING and SUSPENDED go to IDLE (R197, R200); what is left of the send list is handed by the caller. -/
def State.leaveUpload (s : State) : State :=
  match s.nlc.upload with
  | .uploading => s.returnAllBlocks.onNlc fun n => { n with upload := .idle }
  | .suspended => s.onNlc fun n => { n with upload := .idle }
  | .idle => s

/-- The upload goes to IDLE; a refused part that its blocks leave with is withdrawn, and the messages behind it are
handed (R34, R194, R200). -/
def State.endUpload (s : State) : State := s.leaveUpload.flushNight

/-- The upload goes to SUSPENDED (R198), with the same consequence for the send list. -/
def State.suspendUpload (s : State) : State :=
  (s.returnAllBlocks.onNlc fun n => { n with upload := .suspended }).flushNight

/-- The judged carrier's entry shows night session "yes" and the trunk state is ACTIVE (R197). -/
def State.mayUpload (s : State) : Bool :=
  decide (s.tp.trunk = .active) && s.nlc.carrier.any fun c => s.tp.peers[c].flag RoleFlags.night

/-- The upload starts from IDLE when it may, and ends when it may not (R197). -/
def State.testUpload (s : State) : State :=
  if s.mayUpload then
    if s.nlc.upload = .idle then (s.onNlc fun n => { n with upload := .uploading, cursor := 0 }).opportunity else s
  else s.endUpload

/-- A BLOCK ACK taken by the upload (R198, R199). -/
def State.takeAck (ref : BlockRef) (s : State) : State :=
  match ref with
  | .journal first count =>
    ((s.onNlc (NightLink.stopTimer first count)).onJu fun j => j.ack first count).opportunity
  | .activity number =>
    match s.nlc.activity.find? fun e => decide (e.number = number) with
    | none => s
    | some e =>
      ((s.onIs fun i => i.ackActivity e.gen e.positions).onNlc fun n =>
        { n with activity := n.activity.filter fun x => decide (x.number ≠ number) }).opportunity

/-- The expiry of a journal block's timer (R198). -/
def State.journalBlockExpired (first : Seq) (count : Nat) (s : State) : State :=
  if s.nlc.blockTimers.any (BlockTimer.isFor first count) then
    let r := s.ju.returnBlock first count
    let s := (s.onNlc (NightLink.stopTimer first count)).onJu fun _ => r.2
    if r.1 then s.suspendUpload else s.opportunity
  else s

/-- The expiry of an activity entry's timer (R199). -/
def State.activityBlockExpired (number : Nat) (s : State) : State :=
  match s.nlc.activity.find? fun e => decide (e.number = number) && !e.returned with
  | none => s
  | some e =>
    if e.tries < 3 then
      (s.onNlc fun n =>
        { n with
          activity := n.activity.map fun x => if x.number = number then { x with returned := true, ms := 0 } else x }).opportunity
    else s.suspendUpload

/-! ## The session (R190 to R193) -/

/-- CLOSING is drained (R193). -/
def State.drained (s : State) : Bool :=
  decide (s.nlc.session = .closing) && s.fu.upOffice.isEmpty && !s.nlc.sendList.any fun e => e.msg.boundForOffice

def State.enterDay (s : State) : State := s.onNlc fun n => { n with session := .day, callMs := 0 }

/-- CLOSING that is drained ends in DAY (R193). The call conditions are not tested here: R190 does not name the entry to
DAY among the events of its re-test (DESIGN CHOICE, log 67). -/
def State.testDrained (s : State) : State := if s.drained then s.enterDay else s

/-- The call conditions hold (R190). -/
def State.mayCall (s : State) : Bool :=
  decide (s.nlc.session = .day) && s.isSet && s.judgedSelf && s.inWindow && s.nlc.holdMs.isNone && !s.nlc.served

/-- The call conditions are tested, and head office is called (R190). -/
def State.testCall (s : State) : State :=
  if s.mayCall then
    match s.sc.page with
    | none => s
    | some r =>
      (s.toOffice (.sessionOpen r.store s.stn s.is.gen s.sc.dayMark)).onNlc fun n =>
        { n with session := .calling, callMs := 60000 }
  else s

/-- The clock enters the window (R190). -/
def State.enterWindow (s : State) : State := (s.onNlc fun n => { n with inside := true, served := false }).testCall

/-- The clock leaves the window (R190 to R193). -/
def State.leaveWindow (s : State) : State :=
  let s := s.onNlc fun n => { n with inside := false, holdMs := none }
  match s.nlc.session with
  | .calling => s.enterDay
  | .opened => ((s.onNlc fun n => { n with session := .closing }).toOffice .sessionEnd).testDrained
  | .day | .closing => s

/-- Enter or leave the window as the clock now stands (R188). -/
def State.testWindow (s : State) : State :=
  if s.inWindow && !s.nlc.inside then s.enterWindow
  else if !s.inWindow && s.nlc.inside then s.leaveWindow
  else s

/-- SESSION END from head office (R191, R192). -/
def State.takeSessionEnd (s : State) : State :=
  if s.nlc.session = .opened then (s.onNlc fun n => { n with session := .closing, served := true }).testDrained
  else s.dropNight

/-- SESSION ACCEPT in CALLING: the session is OPEN and the guest credit 0, before the clock adopts the time (R169,
R191). -/
def State.openSession (s : State) : State :=
  (s.onNlc fun n =>
    { n with session := .opened, callMs := 0, sessionsOpened := bump n.sessionsOpened }).onFu fun f => { f with credit := 0 }

/-- The call timer expires (R191). -/
def State.callExpired (s : State) : State :=
  if s.nlc.session = .calling then
    s.enterDay.onNlc fun n => { n with holdMs := some 300000, callsFailed := bump n.callsFailed }
  else s

/-- Carrier status is lost (R193): DAY at once, and messages bound for head office leave the send list. -/
def State.loseSession (s : State) : State :=
  if s.nlc.session = .day then s
  else s.enterDay.onNlc fun n => { n with sendList := n.sendList.filter fun e => !e.msg.boundForOffice }

/-! ## The carrier (R187, R200) -/

/-- ORDER RESULT and RECORDS messages are readdressed to the new carrier, from their first part; with none they are
discarded and counted (R200). -/
def State.readdress (s : State) : State :=
  match s.nlc.carrier with
  | some c =>
    if c = s.stn then
      let reports := s.nlc.sendList.filter fun e => e.msg.isReport
      let s := s.onNlc fun n => { n with sendList := n.sendList.filter fun e => !e.msg.isReport }
      reports.foldl (fun s e => s.forwardOffice e.msg) s
    else
      s.onNlc fun n =>
        { n with sendList := n.sendList.map fun e => if e.msg.isReport then { e with dest := c, next := 1 } else e }
  | none =>
    s.onNlc fun n =>
      { n with
        sendList := n.sendList.filter fun e => !e.msg.isReport
        dropped := bumpBy n.dropped (n.sendList.filter fun e => e.msg.isReport).length }

/-- The carrier is judged again (R187): a different result is a carrier change. The upload and the call conditions are
tested at every judgement (R190, R197). -/
def State.rejudge (s : State) : State :=
  let c := s.judge
  let s :=
    if c = s.nlc.carrier then s
    else
      let s := s.onNlc fun n => { n with carrier := c }
      let s := if c = some s.stn then s else s.loseSession
      s.leaveUpload.readdress.flushNight
  s.testUpload.testCall

/-! ## Orders and reads (R6, R196) -/

/-- A result or read goes back to head office (R196). -/
def State.report (m : NightMsg) (tag : Nat) (s : State) : State :=
  if s.judgedSelf then s.forwardOffice m
  else
    match s.nlc.carrier with
    | none => s.dropNight
    | some c => s.addSend m c tag

/-- An order reaches the item store (R6); its result goes back, and a switchover that a SEAL makes due is performed
(R13, R14). -/
def State.runOrder (tag : Nat) (b : BankNo) (o : Order) (s : State) : State :=
  if !s.is.recovered then s.defer (.order tag b o)
  else
    let r := s.is.takeOrder s.lrc.review.isSome tag b o
    let s := s.onIs fun _ => r.2
    match r.1 with
    | none => s
    | some res => (s.report (.orderResult s.stn tag (some res)) tag).switchIfDue

/-- A bank's erase completes (R7). -/
def State.eraseDone (b : BankNo) (s : State) : State :=
  match (s.is.bank b).erasing with
  | none => s
  | some e =>
    (s.onIs fun i => i.eraseComplete b).report
      (.orderResult s.stn e.tag (some { bank := b, outcome := .done, written := 0, count := 0 })) e.tag

/-- A READ for this station (R196, R206). R206 discards a READ RECORDS taken while 4 RECORDS wait and takes a READ "in the
same way"; whether that discard covers a READ is not said. The model answers a READ always and discards none: its RECORDS
go through the carrier and never wait among the 4 (DESIGN CHOICE, log 82). -/
def State.runRead (tag bank index count : Nat) (s : State) : State :=
  (s.report (.records s.stn tag (s.readEntries bank index count)) tag).spend

/-! ## Messages from head office (R191, R193, R195) -/

/-- An ORDER or READ from head office is taken in OPEN alone, a BLOCK ACK in OPEN and CLOSING (R191, R193). -/
def SessionState.relays (st : SessionState) (m : NightMsg) : Bool :=
  match m with
  | .order _ _ _ _ | .read _ _ _ _ _ => decide (st = .opened)
  | .ackJournal _ _ _ | .ackActivity _ _ => st.holdsCredit
  | _ => false

/-- Relay an ORDER, by its target station (R195). -/
def State.relayOrder (t : Station) (tag : Nat) (b : BankNo) (o : Order) (s : State) : State :=
  if !s.nlc.session.relays (.order t tag b o) then s.dropNight
  else if t = s.stn then s.runOrder tag b o
  else if s.tp.peers[t].state = .absent then s.forwardOffice (.orderResult t tag none)
  else s.addSend (.order t tag b o) t tag

/-- Relay a READ, by its target station (R195). -/
def State.relayRead (t : Station) (tag bank index count : Nat) (s : State) : State :=
  if !s.nlc.session.relays (.read t tag bank index count) then s.dropNight
  else if t = s.stn then
    if s.readWaits bank then s.defer (.officeRead tag bank index count) else s.runRead tag bank index count
  else if s.tp.peers[t].state = .absent then s.forwardOffice (.records t tag [])
  else s.addSend (.read t tag bank index count) t tag

def BlockRef.msg (ref : BlockRef) (t : Station) : NightMsg :=
  match ref with
  | .journal first count => .ackJournal t first count
  | .activity number => .ackActivity t number

def BlockRef.needsJournal : BlockRef → Bool
  | .journal _ _ => true
  | .activity _ => false

/-- Relay a BLOCK ACK, by its target station (R195). -/
def State.relayAck (t : Station) (ref : BlockRef) (s : State) : State :=
  if !s.nlc.session.relays (ref.msg t) then s.dropNight
  else if t = s.stn then
    if ref.needsJournal && !s.ju.recovered then s.defer (.ack ref) else s.takeAck ref
  else if s.tp.peers[t].state = .absent then s.dropNight
  else (s.addSend (ref.msg t) t (Config.openTag s.freeIdx % 256)).spend

/-! ## Messages from stations (R194 to R196) -/

/-- A whole night message from another station (R195, R196): orders and reads from the judged carrier, everything for
head office at the carrier. -/
def State.takeNight (src : Station) (m : NightMsg) (s : State) : State :=
  match m with
  | .order _ t b o => if s.nlc.carrier = some src then s.runOrder t b o else s.dropNight
  | .read _ t bank index count =>
    if s.nlc.carrier ≠ some src then s.dropNight
    else if s.readWaits bank then s.defer (.officeRead t bank index count)
    else s.runRead t bank index count
  | .orderResult _ _ _ | .records _ _ _ | .journalBlock _ _ _ _ | .activityBlock _ _ _ _ => s.forwardOffice m
  | .sessionOpen _ _ _ _ | .sessionAccept _ | .sessionEnd | .ackJournal _ _ _ | .ackActivity _ _ => s.dropNight

def State.setAssembly (src : Station) (a : Option Assembly) (s : State) : State :=
  s.onNlc fun n => { n with assembly := updAt n.assembly src fun _ => a }

/-- One message, or parts of different messages under one source, tag and count, which the manual leaves open (R194,
log 62). -/
def NightMsg.join (a b : NightMsg) : NightMsg := if a = b then a else Config.joinedMsg a b

/-- An OFFICE part (R194). A part of the assembly's tag and expected number but of another part count is not the part
expected next and discards the assembly; the manual does not say (DESIGN CHOICE, log 75). -/
def State.takeOffice (src : Station) (tag : Nat) (m : NightMsg) (k n : Nat) (s : State) : State :=
  match s.nlc.assembly[src] with
  | none =>
    if k = 1 ∧ n = 1 then s.takeNight src m
    else if k = 1 ∧ 2 ≤ n ∧ n ≤ 64 then
      s.setAssembly src (some { msg := m, tag := tag, n := n, next := 2, ms := 1000 })
    else s
  | some a =>
    if k = 1 ∧ n = 1 then (s.dropNight.setAssembly src none).takeNight src m
    else if k = 1 ∧ 2 ≤ n ∧ n ≤ 64 then
      s.dropNight.setAssembly src (some { msg := m, tag := tag, n := n, next := 2, ms := 1000 })
    else if a.tag = tag ∧ k = a.next ∧ n = a.n then
      if n ≤ k then (s.setAssembly src none).takeNight src (a.msg.join m)
      else s.setAssembly src (some { a with next := a.next + 1, msg := a.msg.join m })
    else if a.tag = tag then s.dropNight.setAssembly src none
    else s

/-- A partial message is not completed in time (R194). -/
def State.assemblyExpired (src : Station) (s : State) : State :=
  match s.nlc.assembly[src] with
  | none => s
  | some _ => s.dropNight.setAssembly src none

/-- A delivered BLOCK ACK frame (R196). -/
def State.takeBlockAck (src : Station) (ref : BlockRef) (s : State) : State :=
  if s.nlc.carrier ≠ some src then s.dropNight
  else if ref.needsJournal && !s.ju.recovered then s.defer (.ack ref)
  else s.takeAck ref

/-! ## Withdrawal (R38, R201) -/

def SendEntry.sameMessage (a b : SendEntry) : Bool :=
  decide (a.msg = b.msg) && decide (a.dest = b.dest) && decide (a.tag = b.tag)

/-- One withdrawn part put before the list: merged with its own message's later part, if that follows. -/
def putBack (e : SendEntry) : List SendEntry → List SendEntry
  | [] => [e]
  | x :: t => if e.sameMessage x && decide (e.next < x.next) then e :: t else e :: x :: t

/-- Night parts withdrawn from the trunk port's queues return to the send list as pending, in their order and ahead of
it; block messages among them are removed, and messages past 32 discarded and counted (R201). -/
def State.returnNight (fs : List Frame) (s : State) : State :=
  let l := ((fs.filterMap Frame.nightPart).foldr putBack s.nlc.sendList).filter fun e => !e.msg.isBlock
  s.onNlc fun n => { n with sendList := l.take 32, dropped := bumpBy n.dropped (l.length - 32) }

/-! ## Teardowns (R201) -/

/-- CLEAR SETUP. -/
def State.clearNight (s : State) : State :=
  (s.loseSession.onNlc fun n => { n with served := false, holdMs := none, inside := false }).flushNight

end Sys2Proof.Machine
end

