-- ==== Sys2Proof/Machine/Till.lean ====
section
/-!
DEFINITION. Till lines, sessions and baskets as operations of the station (Chapter 4): the order of checks, answers,
waits, lines added and changed, tenders and closes, and the groups the journal reports written.
-/

namespace Sys2Proof.Machine

/-! ## Till line records -/

def State.till (s : State) (k : TillNo) : TillRec := s.bu.tills[k]

def State.onTill (k : TillNo) (f : TillRec → TillRec) (s : State) : State :=
  s.onBu fun b => { b with tills := updAt b.tills k f }

def State.basket (s : State) (k : TillNo) : Basket := (s.till k).basket

def State.onBasket (k : TillNo) (f : Basket → Basket) (s : State) : State :=
  s.onTill k fun t => { t with basket := f t.basket }

/-- Hand an answer to a till line, with the tag of its request (R65). -/
def State.answer (k : TillNo) (tag : Nat) (a : Answer) (s : State) : State := s.emit (.answer k tag a)

def State.refuse (k : TillNo) (tag : Nat) (r : Refused) (s : State) : State := s.answer k tag (.refused r)

/-- The request is answered: it is outstanding no longer and the pending-scan slot is empty. -/
def State.endRequest (k : TillNo) (s : State) : State := s.onTill k fun t => { t with outstanding := none, scan := none }

/-- The effective level of a request of the line (R70). -/
def State.level (s : State) (k : TillNo) (claimed : Option Nat) : Nat :=
  effectiveLevel (s.till k).session (s.ceiling k) claimed

/-- The line's effective level is above a required level (R70). -/
def State.lacks (s : State) (k : TillNo) (claimed : Option Nat) (required : Nat) : Bool :=
  decide (required < s.level k claimed)

/-! ## The order of checks (R64 to R67) -/

/-- The checks of R66 and R67 in their order, the field checks last. -/
def State.judgeRequest (s : State) (k : TillNo) (kind : ReqKind) (fields : List (Option Refused)) : Option Refused :=
  let t := s.till k
  firstRefusal ([refuseIf t.outstanding.isSome .pending,
    refuseIf (decide (kind ≠ .signOn) && t.session.isNone) .noSession,
    refuseIf (if kind = .signOn then t.session.isSome else !kind.takenIn t.basket.state) .state] ++ fields)

/-- A request of a till line (R64, R66): refused NOT-READY while UNSET, ignored on a line not enabled, refused by the
first check that fails, and otherwise taken. -/
def State.request (k : TillNo) (tag : Nat) (kind : ReqKind) (fields : List (Option Refused)) (taken : State → State)
    (s : State) : State :=
  if !s.isSet then s.refuse k tag .notReady
  else if !s.lineEnabled k then s
  else
    match s.judgeRequest k kind fields with
    | some r => s.refuse k tag r
    | none => taken s

/-- A request waits for the recovery of a block it needs (section 1.7, section 8.6; log 5). -/
def State.waitRecovery (k : TillNo) (tag : Nat) (kind : ReqKind) (w : Waiting) (s : State) : State :=
  (s.onTill k fun t => { t with outstanding := some { tag := tag, kind := kind, wait := .recovery } }).defer w

/-! ## Lines (R72, R74) -/

/-- The line of a FOUND result (R72). -/
def scanLine (number : Nat) (p : PriceFind) (m : Measure) : Line :=
  { number := number, subject := .item p.item.code, source := p.source, owner := p.owner, ownerGen := p.gen
    measure := m, unitPrice := p.item.unitPrice, basis := p.item.basis, taxClass := p.item.taxClass
    requiredLevel := p.level, isReturn := decide (m.value < 0), promotion := p.item.promotion }

/-- The line of a KEY (R76). -/
def keyLine (number : Nat) (own : Station) (gen d : Nat) (e : DeptEntry) (price : Nat) (q : Int) : Line :=
  { number := number, subject := .dept d, source := .keyed, owner := own, ownerGen := gen
    measure := .quantity q, unitPrice := price, basis := .each, taxClass := e.taxClass
    requiredLevel := e.overrideLevel, isReturn := decide (q < 0) }

/-- The answer LINE for line n of the basket (Table 4-3). -/
def State.answerLine (k : TillNo) (tag n : Nat) (s : State) : State :=
  match (s.basket k).line n with
  | some l => s.answer k tag (.line l (s.basket k).total (s.basket k).limit)
  | none => s

/-- The records a new line reserves (R74). -/
def Basket.lineNeeds (b : Basket) : Nat := if b.lines.isEmpty then 2 else 1

/-- Reserve records for the basket of a line; none where the journal refuses (R145). -/
def State.reserveFor (k : TillNo) (n : Nat) (s : State) : Option State :=
  if s.ju.grants n then some ((s.onJu fun j => j.reserve n).onBasket k fun b => { b with held := b.held + n }) else none

/-- Reserve, add the line and answer LINE, or refuse JOURNAL-FULL (R72, R74, R76). -/
def State.addLine (k : TillNo) (tag : Nat) (l : Line) (s : State) : State :=
  match s.reserveFor k (s.basket k).lineNeeds with
  | none => s.refuse k tag .journalFull
  | some s => (s.onBasket k fun b => b.addLine l).answerLine k tag l.number

/-- The kind of request that makes a line of a source. -/
def LineSource.request : LineSource → ReqKind
  | .keyed => .key
  | .localBank | .remote => .scan

/-- A line whose price is known: its reservation is asked now, or when the journal has recovered (section 8.6). -/
def State.takeLine (k : TillNo) (tag : Nat) (l : Line) (s : State) : State :=
  if s.ju.recovered then s.addLine k tag l else s.waitRecovery k tag l.source.request (.addLine k tag l)

/-- The number of the next line (R72). -/
def State.nextLine (s : State) (k : TillNo) : Nat := (s.basket k).lines.length + 1

/-! ## Lookup results (R73, R74, R77) -/

/-- The PRICE answer of a FOUND result (Table 4-3). -/
def PriceFind.info (p : PriceFind) : PriceInfo :=
  { code := p.item.code, source := p.source, owner := p.owner, ownerGen := p.gen, unitPrice := p.item.unitPrice
    basis := p.item.basis, taxClass := p.item.taxClass, promotion := p.item.promotion, packSize := p.item.packSize
    description := p.item.description }

/-- The refusal of a result that is not FOUND (Table 3-1). -/
def LookupResult.refusal : LookupResult → Option Refused
  | .unknown => some .unknownItem
  | .noTrunk => some .noTrunk
  | .busy => some .busy
  | .found _ | .waiting => none

/-- A SCAN's lookup has its result (R73, R74). -/
def State.finishScan (k : TillNo) (tag : Nat) (m : Measure) (r : LookupResult) (s : State) : State :=
  match r with
  | .found p =>
    if m.fits p.item.basis then s.takeLine k tag (scanLine (s.nextLine k) p m) else s.refuse k tag .badQty
  | r =>
    match r.refusal with
    | some x => s.refuse k tag x
    | none => s

/-- An ENQUIRE's lookup has its result (R77). -/
def State.finishEnquire (k : TillNo) (tag : Nat) (r : LookupResult) (s : State) : State :=
  match r with
  | .found p => s.answer k tag (.price p.info)
  | r =>
    match r.refusal with
    | some x => s.refuse k tag x
    | none => s

/-- The request waits on its query (R73, R77). -/
def State.waitLookup (k : TillNo) (tag : Nat) (kind : ReqKind) (scan : PendingScan) (s : State) : State :=
  s.onTill k fun t => { t with outstanding := some { tag := tag, kind := kind, wait := .lookup }, scan := some scan }

/-- A SCAN goes to the lookup unit (R73). -/
def State.scanItem (k : TillNo) (tag code : Nat) (m : Measure) (s : State) : State :=
  let r := s.lookup k code .sale
  match r.1 with
  | .waiting => r.2.waitLookup k tag .scan { code := code, measure := some m }
  | res => r.2.finishScan k tag m res

/-- An ENQUIRE goes to the lookup unit (R77). -/
def State.enquireItem (k : TillNo) (tag code : Nat) (s : State) : State :=
  let r := s.lookup k code .enquiry
  match r.1 with
  | .waiting => r.2.waitLookup k tag .enquire { code := code, measure := none }
  | res => r.2.finishEnquire k tag res

/-- The result of a query completes the till's waiting request (R74, R77). -/
def State.lookupDone (k : TillNo) (r : LookupResult) (s : State) : State :=
  match r, (s.till k).outstanding, (s.till k).scan with
  | .waiting, _, _ => s
  | r, some o, some p =>
    match p.measure with
    | some m => (s.endRequest k).finishScan k o.tag m r
    | none => (s.endRequest k).finishEnquire k o.tag r
  | _, _, _ => s

/-- Every waiting query fails with NO-TRUNK at entry to DUPLICATE (R61, R75). -/
def State.failQueries (s : State) : State :=
  let ks := s.lu.waiting
  ks.foldl (fun s k => s.lookupDone k .noTrunk) (s.onLu fun l => l.endQueries.clearCache)

/-! ## Totals, tenders, closes (R80 to R84) -/

/-- The TOTALS answer (Table 4-3). An EMPTY basket has no amounts, and the manual does not say what its answer shows as
remaining amount and cash due; the model shows 0 and 0 (DESIGN CHOICE, log 52). -/
def TillRec.totals (t : TillRec) (step : Nat) : Totals :=
  { session := t.session, state := t.basket.state, lineCount := t.basket.lines.length, amounts := t.basket.amounts
    tax := t.basket.tax, remaining := t.basket.remaining, cashDue := t.basket.cashDue step
    tenders := t.basket.tenders.length, limit := t.basket.limit }

def State.answerTotals (k : TillNo) (tag : Nat) (s : State) : State :=
  s.answer k tag (.totals ((s.till k).totals s.cashStep))

/-- Compute the tax content at the rates of setup (R99). -/
def State.computeTax (k : TillNo) (s : State) : State :=
  s.onBasket k fun b => { b with tax := some (taxContent b.gross s.taxRates) }

def Basket.taxes (b : Basket) : Vector Int 4 := b.tax.getD (Vector.replicate 4 0)

/-- The promotion entries of a SALE record (Table 8-3). -/
def Basket.promoKeys (b : Basket) : List (Nat × Nat × Nat) := b.promos.map fun e => (e.code, e.gen, e.discount)

/-- The cashier of a line's session; a basket is open only under a session (R66). -/
def TillRec.cashier (t : TillRec) : Nat := (t.session.map Session.cashier).getD 0

/-- The SALE record of a basket (R103, R104). -/
def saleBody (k : TillNo) (t : TillRec) (time : Option Time) (paid : Int) (due : Option Int) (rounding : Int)
    (code : Option GuestCode) : JBody :=
  .sale { till := k, cashier := t.cashier, time := time, lineCount := t.basket.lines.length
          gross := t.basket.gross, tax := t.basket.taxes, total := t.basket.total, tenders := t.basket.tenders
          paid := paid, cashDue := due, rounding := rounding, limit := t.basket.limit, promos := t.basket.promoKeys, code := code }

/-- The CANCEL record of a basket (R105). -/
def cancelBody (k : TillNo) (t : TillRec) (time : Option Time) : JBody :=
  .cancel { till := k, cashier := t.cashier, time := time, lineCount := t.basket.lines.length
            gross := t.basket.gross, tax := t.basket.taxes, total := t.basket.total, rounding := 0, limit := t.basket.limit }

/-- Hand a basket's group to the journal; the request waits on CLOSE (R84). -/
def State.handGroup (k : TillNo) (tag : Nat) (kind : ReqKind) (last : JBody) (info : CloseInfo) (s : State) : State :=
  let bodies := lineBodies (s.basket k).lines ++ [last]
  (s.onJu fun j => j.enqueue { holder := .till k, bodies := bodies }).onTill k fun t =>
    { t with outstanding := some { tag := tag, kind := kind, wait := .close }, closing := some info }

/-- The guest code threshold of setup; 0 while UNSET. -/
def State.threshold (s : State) : Nat := (s.sc.page.map SetupRecord.threshold).getD 0

/-- A close with group end SALE, of a TENDER, with the closing tender's cash due, or of a REFUND (R84, R103, R104). -/
def State.closeSale (k : TillNo) (tag : Nat) (kind : ReqKind) (paid : Int) (due : Option Int) (rounding : Int)
    (s : State) : State :=
  let s := s.computeTax k
  let r := s.gu.issue s.threshold (s.basket k).total s.stamp k
  let s := s.onGu fun _ => r.2
  let code := r.1.map fun n => ({ issuer := s.stn, serial := n } : GuestCode)
  s.handGroup k tag kind (saleBody k (s.till k) s.stamp paid due rounding code)
    { kind := .sale, total := (s.basket k).total, paid := paid, code := code }

/-- A close with group end CANCEL (R83, R84, R105). -/
def State.closeCancel (k : TillNo) (tag : Nat) (s : State) : State :=
  let s := s.computeTax k
  s.handGroup k tag .cancel (cancelBody k (s.till k) s.stamp)
    { kind := .cancel, total := (s.basket k).total, paid := 0, code := none }

/-- What a tender would do now (R101, R102). -/
def State.tenderPlan (s : State) (k : TillNo) (m : TenderMethod) (t : Nat) : TenderPlan :=
  planTender m t (s.basket k).remaining s.cashStep

/-- A card or voucher tender above the remaining amount (R81). -/
def overTender (m : TenderMethod) (t : Nat) (remaining : Int) : Bool := decide (m ≠ .cash) && decide (remaining < t)

/-- TENDER's own checks (R81). R71 says that a basket whose every line is VOIDED, with a total of 0, is closed by TENDER
or REFUND; R81 refuses a TENDER at a total of 0 or below with STATE. The model follows R81 (log 51). -/
def State.tenderRefusal (s : State) (k : TillNo) (m : TenderMethod) (t : Nat) : Option Refused :=
  firstRefusal [refuseIf (decide ((s.basket k).total ≤ 0)) .state,
    refuseIf (overTender m t (s.basket k).remaining) .overTender,
    refuseIf (decide (3 ≤ (s.basket k).tenders.length) && !(s.tenderPlan k m t).closes) .basketFull]

/-- Apply a tender that passes (R81, R101, R102). -/
def State.applyTender (k : TillNo) (tag : Nat) (m : TenderMethod) (t : Nat) (s : State) : State :=
  let plan := s.tenderPlan k m t
  let due := cashDueOf (s.basket k).remaining s.cashStep
  let s := (s.computeTax k).onBasket k fun b =>
    { b with tenders := b.tenders ++ [{ method := m, tendered := t, applied := plan.applied }] }
  if plan.closes then s.closeSale k tag .tender plan.change (some due) plan.rounding
  else
    let s := s.onBasket k fun b => { b with state := .tendering }
    s.answer k tag (.tendered (s.basket k).tenders.length m plan.applied (s.basket k).remaining
      ((s.basket k).cashDue s.cashStep))

/-! ## Groups written (R84, R120, R147) -/

/-- The holder of a group is told that it is written, with its group number. -/
def State.groupDone (h : Holder) (group : Seq) (s : State) : State :=
  match h with
  | .park j => s.onBu fun b => { b with park := updAt b.park j fun _ => {} }
  | .till k =>
    let t := s.till k
    let s' := s.onTill k fun t => { t with outstanding := none, closing := none, basket := {} }
    match t.outstanding, t.closing with
    | some o, some c => s'.answer k o.tag (.closed group c.kind c.total c.paid c.code)
    | _, _ => s'

/-- The end record of the oldest group is written (R147); the moved committed end is a sending opportunity (R197). -/
def State.groupWritten (s : State) : State :=
  match s.ju.queue with
  | [] => s
  | g :: rest =>
    let j := { s.ju with queue := rest }.writeGroup g
    ((s.onJu fun _ => j).groupDone g.holder (j.nextSeq - 1)).opportunity

end Sys2Proof.Machine
end

