-- ==== Sys2Proof/Machine/Park.lean ====
section
/-!
DEFINITION. Parked baskets (Chapter 6): PARK and local recall, the transfer at its owner and at its requester, and
abandonment at day roll.
-/

namespace Sys2Proof.Machine

def State.slot (s : State) (j : ParkNo) : ParkEntry := s.bu.park[j]

def State.onSlot (j : ParkNo) (f : ParkEntry → ParkEntry) (s : State) : State :=
  s.onBu fun b => { b with park := updAt b.park j f }

/-! ## PARK (R111) -/

def State.freeSlot (s : State) : Option ParkNo := (fins 16).find? fun j => decide ((s.slot j).state = .free)

/-- The content of a parked basket (R107, R111). -/
def TillRec.content (t : TillRec) (k : TillNo) (time : Option Time) : ParkContent :=
  { lines := t.basket.lines, promos := t.basket.promos, limit := t.basket.limit, origin := k, cashier := t.cashier
    parked := time, held := t.basket.held }

/-- PARK into the lowest FREE entry (R111). -/
def State.parkBasket (k : TillNo) (tag : Nat) (s : State) : State :=
  match s.freeSlot with
  | none => s.refuse k tag .busy
  | some j =>
    let t := s.till k
    let s := s.onSlot j fun _ =>
      { state := .parked, content := some (t.content k s.stamp), held := t.basket.held }
    (s.onBasket k fun _ => {}).answer k tag (.parked (ticketOf s.stn j))

/-! ## Recall installed (R107, R113, R118) -/

/-- The content is installed at a till and RECALLED answered. -/
def State.install (k : TillNo) (tag ticket : Nat) (c : ParkContent) (held : Nat) (s : State) : State :=
  let s := (s.endRequest k).onBasket k fun _ => installed c held
  s.answer k tag (.recalled ticket (s.basket k).lines.length (s.basket k).total (s.basket k).limit)

/-- A local recall (R113, R120). -/
def State.recallLocal (k : TillNo) (tag : Nat) (j : ParkNo) (s : State) : State :=
  match (s.slot j).state, (s.slot j).content with
  | .parked, some c => (s.onSlot j fun _ => {}).install k tag (ticketOf s.stn j) c (s.slot j).held
  | .inTransfer, _ => s.refuse k tag .inUse
  | _, _ => s.refuse k tag .noTicket

/-! ## The requester (R114, R116, R118, R119) -/

def State.ctx (s : State) (k : TillNo) : RecallCtx := s.bu.recalls[k]

def State.onCtx (k : TillNo) (f : RecallCtx → RecallCtx) (s : State) : State :=
  s.onBu fun b => { b with recalls := updAt b.recalls k f }

/-- An IDLE context keeps only its recall sequence (Table 6-3). -/
def RecallCtx.idle (c : RecallCtx) : RecallCtx := { seq := c.seq }

/-- The refusal of a refused class B hand-over. -/
def HandResult.refused : HandResult → Refused
  | .noTrunk => .noTrunk
  | .placed | .wait | .busy | .drop => .busy

/-- A recall fails: the reservation is released, the content discarded, the basket EMPTY, and the till answered
(R112, R114, R116, R118, R119). -/
def State.failRecall (k : TillNo) (r : Refused) (s : State) : State :=
  let c := s.ctx k
  let tag := ((s.till k).outstanding.map Outstanding.tag).getD 0
  let s := ((s.onJu fun j => j.release c.reserved).onCtx k RecallCtx.idle).endRequest k
  (s.onBasket k fun b => { b with state := .empty }).refuse k tag r

/-- A remote recall starts (R114). Its reservation waits for the journal's recovery (section 8.6), the basket RECALLING
meanwhile (R112). The recall taken up then is judged whole, step 1 again too, which the manual does not say (log 54). -/
def State.recallRemote (k : TillNo) (tag ticket : Nat) (owner : Station) (s : State) : State :=
  if s.tp.peers[owner].state = .absent then s.refuse k tag .recallFailed
  else if !s.ju.recovered then
    (s.onBasket k fun b => { b with state := .recalling }).waitRecovery k tag .recall (.recall k tag ticket owner)
  else if !s.ju.grants 65 then s.refuse k tag .journalFull
  else
    let seq := next32 (s.ctx k).seq
    let frameTag := 32 * k.val + seq
    let f := frameTo owner frameTag (.recall ticket k)
    let s' := (s.handOver f).onCtx k fun c => { c with seq := seq }
    if s.handResult f = .placed then
      let s' := (s'.onJu fun j => j.reserve 65).onCtx k fun c =>
        { c with
          phase := .asking, ticket := ticket, owner := owner, tag := frameTag, parts := 0, head := none, taken := []
          reserved := 65, ms := 150 }
      (s'.onBasket k fun b => { b with state := .recalling }).onTill k fun t =>
        { t with outstanding := some { tag := tag, kind := .recall, wait := .recall } }
    else s'.refuse k tag (s.handResult f).refused

/-- The context a frame of a transfer is for: owner, tag and ticket equal, and the phase one of those asked. -/
def State.ctxFor (s : State) (src : Station) (tag ticket : Nat) (p : RecallPhase → Bool) : Option TillNo :=
  (fins 8).find? fun k =>
    let c := s.ctx k
    p c.phase && decide (c.owner = src) && decide (c.tag = tag) && decide (c.ticket = ticket)

/-- The content of a context whose parts are all taken. -/
def RecallCtx.content (c : RecallCtx) : Option ParkContent :=
  c.head.map fun h =>
    { lines := (List.range c.parts).flatMap fun i =>
        ((c.taken.find? fun e => decide (e.1 = i + 1)).map (·.2)).getD []
      promos := h.promos, limit := h.limit, origin := h.origin, cashier := h.cashier, parked := h.parked, held := h.held }

/-- When all parts are held, RELEASE is handed (R116). -/
def State.releaseIfWhole (k : TillNo) (s : State) : State :=
  let c := s.ctx k
  if c.phase = .receiving ∧ c.taken.length = c.parts then
    let f := frameTo c.owner c.tag (.release c.ticket)
    if s.handResult f = .placed then (s.handOver f).onCtx k fun c => { c with phase := .releasing, ms := 150 }
    else (s.handOver f).failRecall k (s.handResult f).refused
  else s

/-- A part is recorded and the timer restarted (R116). -/
def State.recordPart (k : TillNo) (p : ParkPart) (s : State) : State :=
  (s.onCtx k fun c => { c with taken := c.taken ++ [(p.k, p.lines)], ms := 150 }).releaseIfWhole k

/-- Part 1 is taken in ASKING: the reservation is settled against the reservation held h (R116). -/
def State.takeFirst (k : TillNo) (p : ParkPart) (h : ParkHead) (s : State) : State :=
  let s1 := s.onCtx k fun c => { c with phase := .receiving, parts := p.n, head := some h, reserved := h.held }
  if h.held ≤ 65 then (s1.onJu fun j => j.release (65 - h.held)).recordPart k p
  else if s.ju.grants (h.held - 65) then (s1.onJu fun j => j.reserve (h.held - 65)).recordPart k p
  else s.failRecall k .journalFull

/-- A delivered PARK DATA (R116). -/
def State.takePark (src : Station) (tag ticket : Nat) (p : ParkPart) (s : State) : State :=
  match s.ctxFor src tag ticket fun ph => decide (ph = .asking) || decide (ph = .receiving) with
  | none => s
  | some k =>
    let c := s.ctx k
    match c.phase, p.head with
    | .asking, some h => if p.k = 1 then s.takeFirst k p h else s
    | .receiving, _ =>
      if 2 ≤ p.k ∧ p.k ≤ c.parts ∧ !(c.taken.any fun e => decide (e.1 = p.k)) then s.recordPart k p else s
    | _, _ => s

/-- RELEASED taken in RELEASING: the basket is installed (R118). -/
def State.completeRecall (k : TillNo) (s : State) : State :=
  let c := s.ctx k
  let tag := ((s.till k).outstanding.map Outstanding.tag).getD 0
  match c.content with
  | none => s.failRecall k .recallFailed
  | some x => (s.onCtx k RecallCtx.idle).install k tag c.ticket x c.reserved

/-- A delivered RELEASE ANSWER (R116, R118). -/
def State.takeRelease (src : Station) (tag ticket : Nat) (o : ReleaseOutcome) (s : State) : State :=
  match o with
  | .released =>
    match s.ctxFor src tag ticket fun ph => decide (ph = .releasing) with
    | some k => s.completeRecall k
    | none =>
      match s.ctxFor src tag ticket fun ph => decide (ph ≠ .idle) with
      | some _ => s
      | none => s.onBu fun b => { b with lostTransfers := bump b.lostTransfers }
  | .tooLate =>
    match s.ctxFor src tag ticket fun ph => decide (ph = .releasing) with
    | some k => s.failRecall k .recallFailed
    | none => s
  | .inUse =>
    match s.ctxFor src tag ticket fun ph => decide (ph = .asking) with
    | some k => s.failRecall k .inUse
    | none => s
  | .noTicket =>
    match s.ctxFor src tag ticket fun ph => decide (ph = .asking) with
    | some k => s.failRecall k .noTicket
    | none => s

/-- The recall timer of a context expires (R118). -/
def State.recallExpired (k : TillNo) (s : State) : State :=
  if (s.ctx k).phase = .idle then s else s.failRecall k .recallFailed

/-- Fail every waiting context that a test picks, in till order (R119). -/
def State.failRecalls (p : RecallCtx → Bool) (r : Refused) (s : State) : State :=
  (fins 8).foldl (fun s k => if (s.ctx k).phase ≠ .idle ∧ p (s.ctx k) then s.failRecall k r else s) s

/-- The RECALL of line k that waits for the journal's recovery, if there is one, fails with NO-TRUNK (R85). -/
def State.failKeptOf (k : TillNo) (s : State) : State :=
  if s.deferred.any (Waiting.isRecall k) then
    State.failRecall k .noTrunk { s with deferred := s.deferred.filter fun w => !w.isRecall k }
  else s

/-- Every RECALL that waits for the journal's recovery fails at entry to DUPLICATE (R85), in till order. -/
def State.failKept (s : State) : State := (fins 8).foldl (fun s k => s.failKeptOf k) s

/-! ## The owner (R115, R117, R120, R121) -/

/-- The number of PARK DATA parts of a content (log 11). -/
def ParkContent.partCount (c : ParkContent) : Nat := max 1 (min 4 (Config.parkParts c))

/-- How the lines are spread over the parts from part k of n on (log 11). -/
def spreadLines (c : ParkContent) : Nat → Nat → List Line → List (List Line)
  | 0, _, _ => []
  | 1, _, ls => [ls]
  | m + 2, k, ls =>
    ls.take (Config.parkCut c k) :: spreadLines c (m + 1) (k + 1) (ls.drop (Config.parkCut c k))

/-- The head that part 1 carries (Table 6-2). -/
def ParkContent.head (c : ParkContent) (held : Nat) : ParkHead :=
  { origin := c.origin, cashier := c.cashier, parked := c.parked, lineCount := c.lines.length, held := held
    limit := c.limit, promos := c.promos }

/-- The PARK DATA parts of a content (R115). -/
def ParkContent.parts (c : ParkContent) (held : Nat) : List ParkPart :=
  (spreadLines c c.partCount 1 c.lines).zipIdx.map fun e =>
    { k := e.2 + 1, n := c.partCount, head := if e.2 = 0 then some (c.head held) else none, lines := e.1 }

/-- An entry's group is handed and the rest of its reservation released (R120). -/
def State.abandon (j : ParkNo) (s : State) : State :=
  match (s.slot j).content with
  | none => s
  | some c =>
    let a := amountsOf c.lines c.promos
    let body : JBody := .abandon
      { ticket := ticketOf s.stn j, origin := c.origin, cashier := c.cashier, parked := c.parked, time := s.stamp
        lineCount := c.lines.length, gross := a.gross, total := a.total, limit := c.limit }
    let held := (s.slot j).held
    let s := s.onJu fun u => (u.release (held - 1)).enqueue { holder := .park j, bodies := [body] }
    s.onSlot j fun e =>
      { e with state := .abandoning, held := 1, requester := none, ms := 0, abandonPending := false }

/-- A transfer ends without release: PARKED again, or abandoned if abandon pending (R115, R117, R121). -/
def State.endTransfer (j : ParkNo) (s : State) : State :=
  if (s.slot j).state = .inTransfer then
    if (s.slot j).abandonPending then s.abandon j
    else s.onSlot j fun e => { e with state := .parked, requester := none, ms := 0 }
  else s

/-- Hand the parts in order; a refusal ends the transfer (R115, R121). -/
def State.sendParts (j : ParkNo) (dst : Station) (tag ticket : Nat) : List ParkPart → State → State
  | [], s => s
  | p :: rest, s =>
    let f := frameTo dst tag (.parkData ticket p)
    if s.handResult f = .placed then (s.handOver f).sendParts j dst tag ticket rest
    else (s.handOver f).endTransfer j

def State.answerRelease (dst : Station) (tag ticket : Nat) (o : ReleaseOutcome) (s : State) : State :=
  s.handOver (frameTo dst tag (.releaseAnswer ticket o))

/-- The own entry that a ticket names. One of the own station part whose slot part is above 15 names none, which the
manual does not treat; it is answered as a FREE entry is, NO-TICKET or TOO-LATE (DESIGN CHOICE, log 53). -/
def State.ownSlot (s : State) (ticket : Nat) : Option ParkNo :=
  (readTicket ticket).bind fun t => if t.1 = s.stn then some t.2 else none

/-- A delivered RECALL (R115, R120). -/
def State.takeRecall (src : Station) (tag ticket : Nat) (till : TillNo) (s : State) : State :=
  match s.ownSlot ticket with
  | none => s.answerRelease src tag ticket .noTicket
  | some j =>
    match (s.slot j).state, (s.slot j).content with
    | .parked, some c =>
      let held := (s.slot j).held
      (s.onSlot j fun e =>
        { e with state := .inTransfer, ms := 300, requester := some { station := src, till := till, tag := tag } }).sendParts
        j src tag ticket (c.parts held)
    | .inTransfer, _ => s.answerRelease src tag ticket .inUse
    | _, _ => s.answerRelease src tag ticket .noTicket

/-- A RELEASE matches the transfer of an entry (R117). -/
def ParkEntry.matches (e : ParkEntry) (src : Station) (tag : Nat) : Bool :=
  decide (e.state = .inTransfer) && e.requester.any fun r => decide (r.station = src) && decide (r.tag = tag)

/-- A delivered RELEASE (R117). -/
def State.freeReleased (src : Station) (tag ticket : Nat) (s : State) : State :=
  match s.ownSlot ticket with
  | none => s.answerRelease src tag ticket .tooLate
  | some j =>
    if (s.slot j).matches src tag then
      let f := frameTo src tag (.releaseAnswer ticket .released)
      if s.handResult f = .placed then
        let held := (s.slot j).held
        ((s.handOver f).onJu fun u => u.release held).onSlot j fun _ => {}
      else s.handOver f
    else s.answerRelease src tag ticket .tooLate

/-- The basket unit at day roll (R120, R121). -/
def State.abandonAll (s : State) : State :=
  (fins 16).foldl (fun s j =>
    match (s.slot j).state with
    | .parked => s.abandon j
    | .inTransfer => s.onSlot j fun e => { e with abandonPending := true }
    | .free | .abandoning => s) s

end Sys2Proof.Machine
end

