-- ==== Sys2Proof/Machine/Control.lean ====
section
/-!
DEFINITION. Station control (Chapter 12): the day roll, clock adoption, setup taken and cleared.
-/

namespace Sys2Proof.Machine

/-! ## Day roll (R189) -/

/-- A day roll for day d is signalled to the blocks (R18, R61, R120, R178, R189, R199). -/
def State.rollDay (d : Int) (s : State) : State :=
  let s := s.onSc fun c => { c with dayMark := some d }
  let s := (s.onIs ItemStore.rollFlags).abandonAll
  let s := (s.onLu LookupUnit.clearCache).onGu fun g => { g with codes := [] }
  (s.onNlc fun n => { n with cursor := 0 }).opportunity

/-- Perform a day roll that is due (R189). -/
def State.rollIfDue (s : State) : State :=
  match s.dayDue with
  | some d => s.rollDay d
  | none => s

/-! ## Clock adoption (R189, R205) -/

/-- What has become due by a new clock value is performed: the window first, then a switchover and a day roll, in an
order that the manual leaves open when both are due (log 9). -/
def State.clockActs (s : State) : State :=
  let s := s.testWindow
  if s.switchoverDue.isSome && s.dayDue.isSome then
    if Config.dayRollFirst s.freeIdx then s.rollIfDue.switchIfDue.spend else s.switchIfDue.rollIfDue.spend
  else s.switchIfDue.rollIfDue

/-- The clock takes a value and a state; leaving UNSET on a SET station it takes the day mark too (R189, R205), before
the night window is tested, so that a SESSION OPEN of the same event carries the new mark: no rule orders the two (DESIGN
CHOICE, log 83). A clock value is a day and a second; the model begins that second anew at every adoption (DESIGN CHOICE,
log 69). -/
def State.setClock (t : Time) (st : ClockState) (s : State) : State :=
  let wasUnset := decide (s.sc.clockState = .unset)
  let s := s.onSc fun c => { c with clock := some t, clockState := st, clockMs := 0 }
  if wasUnset then s.onSc fun c => { c with dayMark := s.freshMark } else s

/-- The clock adopts a time (R205). -/
def State.adopt (t : Time) (st : ClockState) (s : State) : State := (s.setClock t st).clockActs

/-! ## Setup (R202, R203) -/

/-- Hand a SETUP ANSWER to the trunk port (R202). -/
def State.setupAnswer (dst : Station) (tag : Nat) (r : SetupResult) (s : State) : State :=
  s.handOver (frameTo dst tag (.setupAnswer r))

/-- The radio starts, if the item store's recovery has ended; else it starts then (R140). -/
def State.startLabels (r : SetupRecord) (s : State) : State :=
  if s.is.recovered then s.onLrc fun l => l.restart s.is.activeBank r else s

/-- A record that passes is taken: the station becomes SET and the blocks are signalled, in the order in which R202 lists
them. At a station whose clock is set already, the carrier is thus judged, and head office perhaps called, before the
day mark is set (DEDUCED, log 83). -/
def State.takeSetup (r : SetupRecord) (s : State) : State :=
  let s := s.onSc fun c => { c with page := some r, shareClamped := decide (clampShare r.guestShare ≠ r.guestShare) }
  let s := ((s.installRoutes r).startLabels r).guestRestart.rejudge
  let s :=
    match r.now with
    | some t => if s.sc.clockState = ClockState.unset then s.setClock t .peerSet else s
    | none => s
  (s.onSc fun c => { c with dayMark := s.freshMark }).clockActs

/-- The frame commands SETUP (R202). -/
def State.setup (src : Station) (tag : Nat) (r : SetupRecord) (s : State) : State :=
  if s.isSet then s.setupAnswer src tag .alreadySet
  else
    match r.badField with
    | some f => s.setupAnswer src tag (.badSetup f)
    | none => (s.takeSetup r).setupAnswer src tag .done

/-- A basket that is not EMPTY, or a park entry that is not FREE (R203). -/
def State.tillBusy (s : State) : Bool :=
  (fins 8).any (fun k => decide ((s.basket k).state ≠ .empty)) || (fins 16).any fun j => decide ((s.slot j).state ≠ .free)

/-- Every outstanding request is refused NOT-READY and every session ends (R87). -/
def State.endTills (s : State) : State :=
  let s := (fins 8).foldl (fun s k =>
    match (s.till k).outstanding with
    | some o => (s.endRequest k).refuse k o.tag .notReady
    | none => s) s
  let s := { s with deferred := s.deferred.filter fun w => w.tillOf.isNone }
  s.onBu fun b => { b with tills := updAll b.tills fun _ t => { t with session := none } }

/-- CLEAR SETUP is taken (R203): every block acts as its own rule states. R201 leaves upload and send list as they are;
where the station was the carrier it judges, the carrier change that the loss of its uplink role brings ends the upload
and readdresses or discards its reports, as R187, R197 and R200 say (DEDUCED, log 68). -/
def State.takeClear (s : State) : State :=
  let s := s.onSc fun c => { c with page := none, dayMark := none, shareClamped := false }
  let s := s.endTills.onLu LookupUnit.endQueries
  let s := s.onLrc fun l => { l.stop with slotsClamped := false, periodClamped := false }
  s.clearRoutes.evictAll.clearNight.rejudge

/-- The frame command CLEAR SETUP (R203). -/
def State.clearSetup (src : Station) (tag : Nat) (s : State) : State :=
  if !s.isSet then s.setupAnswer src tag .done
  else if s.tillBusy then s.setupAnswer src tag .busy
  else s.takeClear.setupAnswer src tag .done

end Sys2Proof.Machine
end

