-- ==== Sys2Proof/Machine/Trunk.lean ====
section
/-!
DEFINITION. The trunk port with the rest of the station (Chapter 2): ANNOUNCE and the own peer entry, peer table
changes and their signals, entry to ACTIVE and to DUPLICATE, contention, offers of room, and the delivery of frames.
-/

namespace Sys2Proof.Machine

/-! ## Peer table changes (R45, Table 2-10) -/

def State.peer (s : State) (n : Station) : PeerEntry := s.tp.peers[n]

def State.setPeer (n : Station) (e : PeerEntry) (s : State) : State :=
  s.onTp fun t => { t with peers := updAt t.peers n fun _ => e }

/-- The change reaches the lookup unit (R60, R61). -/
def State.signalLookup (n : Station) (old : PeerEntry) (s : State) : State :=
  if (s.peer n).state = .absent then
    if old.state = .absent then s.onLu (LookupUnit.ownerRaised n (s.peer n).gen) else s.onLu (LookupUnit.ownerAbsent n)
  else if old.gen < (s.peer n).gen then s.onLu (LookupUnit.ownerRaised n (s.peer n).gen)
  else s

/-- The entry became ABSENT: pending office packets, code checks and recalls of that station end (R119, R165, R182). -/
def State.signalAbsent (n : Station) (old : PeerEntry) (s : State) : State :=
  if (s.peer n).state = .absent ∧ old.state ≠ .absent then
    ((s.pendingAbsent n).issuerAbsent n).failRecalls (fun c => decide (c.owner = n)) .recallFailed
  else s

/-- The state, an uplink flag or the night flag changed: the carrier is judged again (R187). -/
def nightChange (old new : PeerEntry) : Bool :=
  decide (old.state ≠ new.state) ||
    decide (old.flag RoleFlags.cabled ≠ new.flag RoleFlags.cabled) ||
    decide (old.flag RoleFlags.linkUp ≠ new.flag RoleFlags.linkUp) ||
    decide (old.flag RoleFlags.night ≠ new.flag RoleFlags.night)

/-- Signal a change of entry n, made whole before, to the blocks concerned (R45). -/
def State.peerChanged (n : Station) (old : PeerEntry) (s : State) : State :=
  let s := (s.signalLookup n old).relearn n
  let s := s.signalAbsent n old
  if nightChange old (s.peer n) then s.rejudge else s

/-! ## ANNOUNCE (R40 to R42) -/

/-- The contents of an ANNOUNCE formed now (Table 2-8). -/
def State.announceInfo (s : State) : AnnounceInfo :=
  { zone := (s.sc.page.map SetupRecord.zone).getD 0
    setupPresent := s.isSet, cabled := s.cabled, linkUp := s.linkCounts, gen := s.is.gen
    journalFree := s.ju.free, journalLow := s.ju.low
    subnet := s.sc.page.map SetupRecord.tillNet
    clock := s.sc.clock, clockState := s.sc.clockState
    night := decide (s.nlc.session = .opened), unreachable := s.lrc.unreachable }

/-- The fields an entry copies from an ANNOUNCE (R42); zone 0, an UNSET station's, is no zone (Table 2-9). -/
def PeerEntry.fill (e : PeerEntry) (a : AnnounceInfo) : PeerEntry :=
  { e with
    zone := if a.zone = 0 then none else some a.zone
    flags := some { setupPresent := a.setupPresent, cabled := a.cabled, linkUp := a.linkUp
                    journalLow := a.journalLow, night := a.night }
    journalFree := some a.journalFree, subnet := a.subnet, clockState := some a.clockState
    unreachable := some a.unreachable }

/-- The own entry while ACTIVE (R41). -/
def PeerEntry.own (a : AnnounceInfo) : PeerEntry :=
  ({ state := .present, gen := a.gen, age := some 0 } : PeerEntry).fill a

/-- An entry after a delivered ANNOUNCE (R42). -/
def PeerEntry.announced (e : PeerEntry) (a : AnnounceInfo) : PeerEntry :=
  { e.fill a with
    state := .present, age := some 0, gen := if e.state = .absent then a.gen else max e.gen a.gen }

/-- An entry that became ABSENT: its recorded generation is kept, and its age goes on (R44). -/
def PeerEntry.gone (e : PeerEntry) : PeerEntry := { state := .absent, gen := e.gen, age := e.age }

/-- Form an ANNOUNCE, hand it to the A queue, and fill the own entry from the same values (R40, R41). -/
def State.formAnnounce (s : State) : State :=
  let a := s.announceInfo
  let old := s.peer s.stn
  let s := s.handOver { dest := .broadcast, tag := 0, payload := .announce a }
  (s.setPeer s.stn (PeerEntry.own a)).peerChanged s.stn old

/-- A delivered ANNOUNCE (R42, R205). The signals of its entry's change (R45) come first, and its clock is judged and
adopted after them; the manual gives no order (DESIGN CHOICE, log 74). -/
def State.takeAnnounce (src : Station) (a : AnnounceInfo) (s : State) : State :=
  let old := s.peer src
  let s := (s.setPeer src (old.announced a)).peerChanged src old
  match a.clock with
  | some t => if s.adopts t a.clockState then s.adopt t a.clockState else s
  | none => s

/-- A delivered PRICE NOTICE (R43). -/
def State.takeNotice (src : Station) (gen : Nat) (s : State) : State :=
  let old := s.peer src
  if old.gen < gen then (s.setPeer src { old with gen := gen }).peerChanged src old else s

/-- A PRESENT entry, not the own one, becomes STALE (R44). -/
def State.peerStale (n : Station) (s : State) : State :=
  if n ≠ s.stn ∧ (s.peer n).state = .present then
    (s.setPeer n { s.peer n with state := .stale }).peerChanged n (s.peer n)
  else s

/-- A STALE entry, not the own one, becomes ABSENT (R44). -/
def State.peerAbsent (n : Station) (s : State) : State :=
  if n ≠ s.stn ∧ (s.peer n).state = .stale then (s.setPeer n (s.peer n).gone).peerChanged n (s.peer n) else s

/-! ## Trunk states (R36 to R39) -/

/-- A withdrawn class B frame's block acts (R119, R182). -/
def State.withdrawB (f : Frame) (s : State) : State :=
  match f.payload with
  | .releaseAnswer _ ReleaseOutcome.released => s.onBu fun b => { b with lostTransfers := bump b.lostTransfers }
  | .codeAnswer c .ok => s.onGu (GuestUnit.giveBack c.serial)
  | .codeCheck .giveBack _ => s.onGu fun g => { g with notReturned := bump g.notReturned }
  | _ => s

def Frame.isRecords (f : Frame) : Bool := decide (f.payload.kind = .records)

/-- The queues are emptied and the blocks told (R38, step 1). A TILL packet that was counted before, when a later part of
it was refused, is counted here again (DESIGN CHOICE, log 64). -/
def State.withdrawAll (s : State) : State :=
  let qB := s.tp.qB
  let qC := s.tp.qC
  let s := s.onTp fun t =>
    { t with
      qA := [], qB := [], qC := [], keptA := [], sending := none
      recordC := t.recordC ++ qC.filter fun f => f.owner.isSome
      guestDropped := bumpBy t.guestDropped (qC.filter Frame.isGuestRelay).length }
  let s := qB.foldl (fun s f => s.withdrawB f) (s.dropMany .till (withdrawnPackets .till qB).length)
  ((s.returnRelays qC).returnNight qC).returnRecords (qC.filter Frame.isRecords)

/-- Entry to DUPLICATE, its five steps in one event (R37, R38). The own entry becomes ABSENT, and an OFFICE packet pending
to the own number is dropped with it (R165). Table 8-5 leaves the in-flight table and the read pointer
as they are at this entry, and R197 and R200 return all blocks; the model follows R200 (DEDUCED, log 59). -/
def State.enterDuplicate (s : State) : State :=
  let old := s.peer s.stn
  let s := s.onTp fun t => { t with duplicateEntries := bump t.duplicateEntries }
  let s := s.withdrawAll
  let s := s.onTp fun t =>
    { t with trunk := .dupHold, trunkMs := 60000, sitOut := false, lastGarble := none
             peers := updAt t.peers s.stn PeerEntry.gone }
  let s := if old.state = .absent then s else s.pendingAbsent s.stn
  let s := (s.failQueries.failRecalls (fun _ => true) .noTrunk).failKept.endChecks fun _ => true
  if nightChange old (s.peer s.stn) then s.rejudge.endUpload else s.endUpload

/-- A good frame from the own number while not sending (R29, R37, R39). -/
def State.ownNumber (s : State) : State :=
  if s.tp.sending.isSome then s
  else
    match s.tp.trunk with
    | .listening | .active => s.enterDuplicate
    | .dupListen => s.onTp fun t => { t with trunk := .dupHold, trunkMs := 60000 }
    | .dupHold => s

/-! ## Contention and sending (R30 to R32) -/

/-- The frame that the station may start at a slot (R30, R32): the oldest of the highest class held, where the slot's
class allows it. -/
def TrunkPort.startable (t : TrunkPort) (slot : FrameClass) : Option Frame :=
  match t.qA, t.qB, t.qC, slot with
  | f :: _, _, _, _ => some f
  | [], f :: _, _, .b => some f
  | [], f :: _, _, .c => some f
  | [], [], f :: _, .c => if t.sitOut then none else some f
  | _, _, _, _ => none

/-- A slot instant of the round (R30); none of the round in progress at entry to ACTIVE is the station's (R36). -/
def TrunkPort.slot (t : TrunkPort) (cls : FrameClass) (carrier : Bool) : TrunkPort :=
  if t.trunk = .active ∧ t.sending = none ∧ carrier = false ∧ t.roundLeft = false then
    { t with sending := t.startable cls }
  else t

/-- Take a frame from the head of its queue. -/
def dropHead (f : Frame) : List Frame → List Frame
  | [] => []
  | g :: q => if f = g then q else g :: q

/-- A transmission ended with no difference (R31, R32). -/
def TrunkPort.sent (t : TrunkPort) (f : Frame) : TrunkPort :=
  let t := { t with sending := none, sitOut := decide (f.frameClass = FrameClass.c) }
  match f.frameClass with
  | .a => { t with qA := dropHead f t.qA }
  | .b => { t with qB := dropHead f t.qB }
  | .c => { t with qC := dropHead f t.qC }

/-- The own transmission has been sent (R31). -/
def State.transmissionSent (s : State) : State :=
  match s.tp.sending with
  | none => s
  | some f => (s.onTp fun t => t.sent f).emit (.trunk f)

/-- A garbled transmission comes within 1 s after an earlier one (R31). -/
def State.garbledAgain (s : State) : Bool := s.tp.lastGarble.any fun t => decide (s.now ≤ t + 1000)

/-- The own transmission is garbled (R31, R37). -/
def State.garbled (s : State) : State :=
  if s.tp.sending.isNone then s
  else
    let again := s.garbledAgain
    let s := s.onTp fun t =>
      { t with sending := none, sitOut := false, collisions := bump t.collisions, lastGarble := some s.now }
    if again then s.enterDuplicate else s

/-! ## Offers of room (R34) -/

/-- Room in the A queue goes to the kept frames in their order (R34). -/
def TrunkPort.offerA (t : TrunkPort) : TrunkPort :=
  if t.trunk.isDuplicate then t
  else { t with qA := t.qA ++ t.keptA.take (8 - t.qA.length), keptA := t.keptA.drop (8 - t.qA.length) }

/-- The frame an owner hands next. -/
def State.nextFrame (s : State) : COwner → Option Frame
  | .forward => s.fu.officePending.head?.map OfficePending.frame
  | .night => s.nlc.sendList.head?.map SendEntry.frame
  | .control => s.sc.pendingRecords.head?

/-- The owner hands its next frame. -/
def State.handOwner (s : State) : COwner → State
  | .forward => s.offerForward
  | .night => s.handNight
  | .control => s.offerControl

/-- Two frames are one part of one message or packet; a night part is the same at whatever carrier (R200). -/
def Frame.samePart (g h : Frame) : Bool :=
  match g.nightPart, h.nightPart with
  | some x, some y => x.isOf y && decide (x.next = y.next)
  | _, _ => decide (g = h)

/-- The block of `f`, whose turn has come, hands its next part, which may be an older one of its own with a turn later
on the record; that part has been handed then, and its turn is f's (R34, log 19). -/
def State.takeTurn (f : Frame) (o : COwner) (s : State) : State :=
  let s' := s.handOwner o
  match s.nextFrame o with
  | some g => if g.samePart f then s' else s'.onTp fun t => { t with recordC := onFirst g.samePart (fun _ => f) t.recordC }
  | none => s'

/-- An owner with more to hand and no frame on record stays on record with its next one, behind the others (log 19). -/
def State.keepOnRecord (o : COwner) (s : State) : State :=
  match s.nextFrame o with
  | some f => if s.onRecord o then s else s.recordC f
  | none => s

/-- A place in the C queue is offered for the frame at the head of the record: its block hands its next frame, or,
where it has withdrawn that frame, is passed over (R34). -/
def State.offerTo (f : Frame) (s : State) : State :=
  match f.owner with
  | some o => (if s.keeps f then s.takeTurn f o else s).keepOnRecord o
  | none => s

/-- Offers of class C room, one frame per place, to the record in its order (R34). -/
def State.offerC : Nat → State → State
  | 0, s => s
  | k + 1, s =>
    if s.tp.trunk ≠ .active ∨ 32 ≤ s.tp.qC.length then s
    else
      match s.tp.recordC with
      | [] => s
      | f :: rest => ((s.onTp fun t => { t with recordC := rest }).offerTo f).offerC k

/-- The free places of each queue are offered to that class's record (R34). At most 32 places are filled; each step
fills one or takes a withdrawn frame off the record. A night message that left the send list is a sending opportunity,
taken when the offers are over (R197). -/
def State.offerRoom (s : State) : State :=
  let s := s.onTp TrunkPort.offerA
  let s' := s.offerC (32 + s.tp.recordC.length)
  if s'.nlc.sendList.length < s.nlc.sendList.length then s'.opportunity else s'

/-- Entry to ACTIVE, from LISTEN or from the listen of DUPLICATE: the free places of each queue go to that class's
record (R34), an ANNOUNCE is formed, and the station joins contention from the next round on (R35, R36, R39). That the
offers come before all that the entry itself brings about is DEDUCED (log 19). -/
def State.enterActive (s : State) : State :=
  (s.onTp fun t => { t with trunk := .active, trunkMs := 2000, roundLeft := true }).offerRoom.formAnnounce

/-! ## Delivery (R29) -/

/-- Table 2-3: the trunk state delivers a good frame of this kind that is addressed to the station or broadcast. -/
def TrunkState.delivers : TrunkState → FrameKind → Bool
  | .active, _ => true
  | .listening, k => decide (k = .announce) || decide (k = .priceNotice) || decide (k = .relay)
  | .dupHold, k | .dupListen, k => decide (k = .announce) || decide (k = .priceNotice)

/-- A frame of another party ends the round, and with it a sit-out (R32) or the wait of a station new in ACTIVE for
its first round (R36). -/
def State.roundOver (s : State) : State := s.onTp fun t => { t with sitOut := false, roundLeft := false }

/-- A good frame heard, of a source and a kind, addressed to the station or broadcast: its receiving block takes it if
the trunk state delivers it; one from the own number is never delivered (R29, R37). -/
def State.deliver (src : Station) (kind : FrameKind) (taken : State → State) (s : State) : State :=
  if src = s.stn then s.ownNumber
  else if s.tp.trunk.delivers kind then taken s.roundOver
  else s.roundOver

end Sys2Proof.Machine
end

