-- ==== Sys2Proof/Machine/ResetCommands.lean ====
section
/-!
DEFINITION. The commands of reset and power-on recovery: POWER_ON_RESET, ITEM_STORE_RECOVERY, JOURNAL_RECOVERY.
-/

namespace Sys2Proof.Machine

abbrev Answered := Host.Outcome State Fault Refusal

/-- What a power loss leaves of the price banks (R8, R22, R23). The price generation until the recovery's end is not
given (R16); the model holds 0 (log 39). -/
def ItemStore.afterCut (i : ItemStore) (cut : PowerCut) : ItemStore :=
  let i := i.cutWrite cut.write
  { banks := updAll i.banks fun n b => b.afterCut (if n = 0 then cut.erase0 else cut.erase1) }

/-- The part after power-on reset: the non-volatile stores as the power loss left them, everything else at its reset
value; the ULLINK line keeps its level, and what the lines were given stays given. Of the guest air port the manual says
that no DATA waits (R185); the model drops every message waiting there and the one being sent, and the frame being sent
on the uplink (DESIGN CHOICE, log 79). -/
def State.afterReset (pins : Station) (cut : PowerCut) (s : State) : State :=
  { stn := pins
    is := s.is.afterCut cut
    ju := s.ju.afterCut cut
    fu := { linkUp := s.fu.linkUp, rate := s.fu.rate }
    sc := { page := s.sc.page
            shareClamped := s.sc.page.any fun r => decide (clampShare r.guestShare ≠ r.guestShare) }
    out := s.out, freeIdx := s.freeIdx, pending := s.pending }

/-- A station whose setup page holds a setup is SET from the reset: setup routes, and RESTART with guest service on
(R159, R185). -/
def State.startSet (s : State) : State :=
  match s.sc.page with
  | some r => (s.installRoutes r).guestRestart
  | none => s

/-- POWER_ON_RESET (R46, R63, R86, R122, R170, R185, R201, R204). -/
def execPowerOnReset (pins : Station) (cut : PowerCut) (s : State) : Answered := .next (s.afterReset pins cut).startSet

/-- The label table is built at the end of the item store's recovery, and the radio of a SET station starts (R139,
R140). -/
def State.buildLabels (s : State) : State :=
  s.onLrc fun l =>
    match s.sc.page with
    | some r => (l.build s.is.activeBank).startRadio r
    | none => l.build s.is.activeBank

/-- ITEM_STORE_RECOVERY (R22, R23). -/
def execItemStoreRecovery (s : State) : Answered :=
  .next (if s.is.recovered then s else (s.onIs ItemStore.recover).buildLabels.switchIfDue)

/-- JOURNAL_RECOVERY (R154, R155). -/
def execJournalRecovery (s : State) : Answered :=
  .next (if s.ju.recovered then s else (s.onJu JournalUnit.recover).opportunity)

end Sys2Proof.Machine
end

