-- ==== Sys2Proof/Machine/TrunkCommands.lean ====
section
/-!
DEFINITION. The commands of the trunk port (Chapter 2) and of station control's frames (Chapter 12).
-/

namespace Sys2Proof.Machine

/-- LISTEN_END (R36). -/
def execListenEnd (s : State) : Answered := .next (if s.tp.trunk = .listening then s.enterActive else s)

/-- ANNOUNCE_TIMER (R40). -/
def execAnnounceTimer (s : State) : Answered :=
  .next (if s.tp.trunk = .active then (s.onTp fun t => { t with trunkMs := 2000 }).formAnnounce else s)

/-- CONTENTION_SLOT (R30, R32). -/
def execContentionSlot (cls : FrameClass) (carrier : Bool) (s : State) : Answered :=
  .next (s.onTp fun t => t.slot cls carrier)

/-- CONTENTION_ROUND_END (R26, R32). -/
def execContentionRoundEnd (s : State) : Answered := .next s.roundOver

/-- TRANSMISSION_SENT (R31, R32). -/
def execTransmissionSent (s : State) : Answered := .next s.transmissionSent

/-- GARBLED_TRANSMISSION (R31, R37). -/
def execGarbledTransmission (s : State) : Answered := .next s.garbled

/-- ROOM_OFFERED (R34). -/
def execRoomOffered (s : State) : Answered := .next s.offerRoom

/-- BAD_FRAME (R27): a frame that a test of R27 fails is counted and discarded. -/
def execBadFrame (f : RawFrame) (s : State) : Answered :=
  .next (if f.good then s.roundOver else s.roundOver.onTp fun t => { t with badFrames := bump t.badFrames })

/-- OWN_NUMBER_FRAME (R37, R39). -/
def execOwnNumberFrame (s : State) : Answered := .next s.ownNumber

/-- FRAME_NOT_DELIVERED (R29): discarded without count. -/
def execFrameNotDelivered (src : Station) (s : State) : Answered :=
  .next (if src = s.stn then s.ownNumber else s.roundOver)

/-- DUPLICATE_HOLD_END (R39). -/
def execDuplicateHoldEnd (s : State) : Answered :=
  .next (if s.tp.trunk = .dupHold then s.onTp fun t => { t with trunk := .dupListen, trunkMs := 10000 } else s)

/-- DUPLICATE_LISTEN_END (R39). -/
def execDuplicateListenEnd (s : State) : Answered := .next (if s.tp.trunk = .dupListen then s.enterActive else s)

/-- PEER_STALE (R44). -/
def execPeerStale (n : Station) (s : State) : Answered := .next (s.peerStale n)

/-- PEER_ABSENT (R44). -/
def execPeerAbsent (n : Station) (s : State) : Answered := .next (s.peerAbsent n)

/-- ANNOUNCE (R42, R205). -/
def execAnnounce (src : Station) (a : AnnounceInfo) (s : State) : Answered :=
  .next (s.deliver src .announce (State.takeAnnounce src a))

/-- PRICE_NOTICE (R43). -/
def execPriceNotice (src : Station) (gen : Nat) (s : State) : Answered :=
  .next (s.deliver src .priceNotice (State.takeNotice src gen))

/-- SETUP (R202). -/
def execSetup (src : Station) (tag : Nat) (r : SetupRecord) (s : State) : Answered :=
  .next (s.deliver src .setup (State.setup src tag r))

/-- CLEAR_SETUP (R203). -/
def execClearSetup (src : Station) (tag : Nat) (s : State) : Answered :=
  .next (s.deliver src .clearSetup (State.clearSetup src tag))

/-- SETUP_ANSWER (R206): station control discards it. -/
def execSetupAnswer (src : Station) (s : State) : Answered := .next (s.deliver src .setupAnswer id)

/-- READ_RECORDS (R206): with 4 RECORDS pending it is discarded at once, whatever it reads (`State.answerRead`). -/
def execReadRecords (src : Station) (tag bank index count : Nat) (s : State) : Answered :=
  .next (s.deliver src .readRecords fun s =>
    if s.readWaits bank ∧ s.sc.pendingRecords.length < 4 then s.defer (.read src tag bank index count)
    else s.answerRead src tag bank index count)

/-- RECORDS (R206): station control discards it. -/
def execRecords (src : Station) (s : State) : Answered := .next (s.deliver src .records id)

/-- DAY_ROLL (R189): performed when it is due. -/
def execDayRoll (s : State) : Answered := .next s.rollIfDue

end Sys2Proof.Machine
end

