-- ==== Sys2Proof/Machine/NetCommands.lean ====
section
/-!
DEFINITION. The commands of parked baskets on the trunk (Chapter 6), forwarding and the uplink (Chapter 9), guest
wireless (Chapter 10) and the night link (Chapter 11).
-/

namespace Sys2Proof.Machine

/-! ## Parked baskets on the trunk -/

/-- RECALL_FRAME (R115). -/
def execRecallFrame (src : Station) (tag ticket : Nat) (till : TillNo) (s : State) : Answered :=
  .next (s.deliver src .recall (State.takeRecall src tag ticket till))

/-- PARK_DATA (R116). -/
def execParkData (src : Station) (tag ticket : Nat) (part : ParkPart) (s : State) : Answered :=
  .next (s.deliver src .parkData (State.takePark src tag ticket part))

/-- RELEASE (R117). -/
def execRelease (src : Station) (tag ticket : Nat) (s : State) : Answered :=
  .next (s.deliver src .release (State.freeReleased src tag ticket))

/-- RELEASE_ANSWER (R118). -/
def execReleaseAnswer (src : Station) (tag ticket : Nat) (outcome : ReleaseOutcome) (s : State) : Answered :=
  .next (s.deliver src .releaseAnswer (State.takeRelease src tag ticket outcome))

/-- TRANSFER_TIMER_EXPIRY (R117, R121). -/
def execTransferTimerExpiry (slot : ParkNo) (s : State) : Answered := .next (s.endTransfer slot)

/-- RECALL_TIMER_EXPIRY (R118). -/
def execRecallTimerExpiry (line : TillNo) (s : State) : Answered := .next (s.recallExpired line)

/-! ## Forwarding and the uplink -/

/-- RELAY (R166). -/
def execRelay (src : Station) (tag : Nat) (part : RelayPart) (s : State) : Answered :=
  .next (s.deliver src .relay (State.takeRelay src tag part))

/-- REASSEMBLY_TIMER_EXPIRY (R166). -/
def execReassemblyTimerExpiry (entry : Fin 8) (s : State) : Answered := .next (s.reasmExpired entry)

/-- TILL_DATA_PACKET (R64, R157). -/
def execTillDataPacket (line : TillNo) (p : Packet) (s : State) : Answered :=
  .next (if s.lineEnabled line then s.route .till .till p else s.dropPacket .till)

/-- A message of head office taken on the uplink port (R157, R191, R195). -/
def State.takeOfficeMsg (m : NightMsg) (s : State) : State :=
  match m with
  | .sessionAccept t =>
    if s.nlc.session = .calling then s.openSession.adopt t .officeSet else s.dropNight
  | .sessionEnd => s.takeSessionEnd
  | .order t tag b o => s.relayOrder t tag b o
  | .read t tag bank index count => s.relayRead t tag bank index count
  | .ackJournal t first count => s.relayAck t (.journal first count)
  | .ackActivity t number => s.relayAck t (.activity number)
  | .sessionOpen _ _ _ _ | .orderResult _ _ _ | .records _ _ _ | .journalBlock _ _ _ _ | .activityBlock _ _ _ _ =>
    s.dropNight

/-- A packet received on the uplink port of a cabled station (R157). -/
def State.takeUplink (r : SetupRecord) (p : Packet) (s : State) : State :=
  let cls : OriginClass := if r.officeNet.covers p.src then .office else .guest
  if !p.lengthOk then s.dropPacket cls
  else if p.dst = r.stationAddr then
    match p.body with
    | .night m => s.takeOfficeMsg m
    | .data _ => s
  else s.route .uplink cls p

/-- UPLINK_PACKET (R157): a station whose link counts as down does not use the port (R167). -/
def execUplinkPacket (p : Packet) (s : State) : Answered :=
  .next (match s.sc.page with
    | some r => if s.linkCounts then s.takeUplink r p else s
    | none => s)

/-- UPLINK_FRAME_END (R168); a session in CLOSING may be drained by it (R193). -/
def execUplinkFrameEnd (s : State) : Answered := .next s.uplinkEnded.testDrained

/-- UPLINK_LINK_CHANGE (R167, R187). -/
def execUplinkLinkChange (up : Bool) (rate : LinkRate) (s : State) : Answered :=
  .next ((s.linkReport up rate).rejudge)

/-- GUEST_CREDIT_WINDOW (R169). -/
def execGuestCreditWindow (s : State) : Answered := .next s.creditWindow

/-! ## Guest wireless -/

/-- CODE_CHECK (R180). -/
def execCodeCheck (src : Station) (tag : Nat) (code : GuestCode) (s : State) : Answered :=
  .next (s.deliver src .codeCheck (State.answerCheck src tag code))

/-- CODE_CHECK_RETURN (R181). -/
def execCodeCheckReturn (src : Station) (code : GuestCode) (s : State) : Answered :=
  .next (s.deliver src .codeCheck fun s => s.onGu (GuestUnit.giveBack code.serial))

/-- CODE_ANSWER (R181). -/
def execCodeAnswer (src : Station) (tag : Nat) (code : GuestCode) (outcome : CodeOutcome) (s : State) : Answered :=
  .next (s.deliver src .codeAnswer (State.takeCodeAnswer src tag code outcome))

/-- JOIN (R173). -/
def execJoin (addr : ClientAddr) (s : State) : Answered := .next (s.join addr)

/-- CODE (R179). -/
def execCode (addr : ClientAddr) (chars : List Nat) (s : State) : Answered := .next (s.enterCode addr chars)

/-- GUEST_DATA (R175): a packet that passes goes to the forwarding unit. -/
def execGuestData (addr : ClientAddr) (p : Packet) (s : State) : Answered :=
  let r := s.meter addr p
  .next (if r.1 then r.2.route (.guestAir addr) .guest p else r.2)

/-- LEAVE (R174). -/
def execLeave (addr : ClientAddr) (s : State) : Answered := .next (s.leave addr)

/-- GUEST_RATE_WINDOW (R175). -/
def execGuestRateWindow (s : State) : Answered := .next (s.onGu GuestUnit.rateWindow)

/-- CODE_CHECK_TIMER_EXPIRY (R181). -/
def execCodeCheckTimerExpiry (entry : Fin 128) (s : State) : Answered := .next (s.checkExpired entry)

/-- ADMISSION_EXPIRY (R183). -/
def execAdmissionExpiry (entry : Fin 128) (s : State) : Answered := .next (s.admissionEnded entry)

/-- BLOCK_EXPIRY (R184). -/
def execBlockExpiry (entry : Fin 128) (s : State) : Answered := .next (s.blockEnded entry)

/-- CODE_EXPIRY (R178). -/
def execCodeExpiry (serial : Nat) (s : State) : Answered := .next (s.onGu (GuestUnit.removeCode serial))

/-- GUEST_AIR_PORT_MESSAGE_SENT (R171). -/
def execGuestAirPortMessageSent (s : State) : Answered := .next s.airSent

/-! ## The night link -/

/-- OFFICE (R194 to R196). -/
def execOffice (src : Station) (tag : Nat) (msg : NightMsg) (k n : Nat) (s : State) : Answered :=
  .next (s.deliver src .office (State.takeOffice src tag msg k n))

/-- NIGHT_ASSEMBLY_TIMEOUT (R194). -/
def execNightAssemblyTimeout (src : Station) (s : State) : Answered := .next (s.assemblyExpired src)

/-- BLOCK_ACK (R196). -/
def execBlockAck (src : Station) (_tag : Nat) (ref : BlockRef) (s : State) : Answered :=
  .next (s.deliver src .blockAck (State.takeBlockAck src ref))

/-- NIGHT_WINDOW_ENTER (R188): taken when the clock is inside the window and was not. -/
def execNightWindowEnter (s : State) : Answered :=
  .next (if s.inWindow && !s.nlc.inside then s.enterWindow else s)

/-- NIGHT_WINDOW_LEAVE (R188): taken when the clock is outside the window and was inside. -/
def execNightWindowLeave (s : State) : Answered :=
  .next (if !s.inWindow && s.nlc.inside then s.leaveWindow else s)

/-- CALL_TIMER_EXPIRY (R191). -/
def execCallTimerExpiry (s : State) : Answered := .next s.callExpired

/-- CALL_HOLD_END (R190). -/
def execCallHoldEnd (s : State) : Answered :=
  .next (if s.nlc.holdMs.isSome then (s.onNlc fun n => { n with holdMs := none }).testCall else s)

/-- SESSION_ACCEPT (R191, R205). -/
def execSessionAccept (t : Time) (s : State) : Answered :=
  .next (if s.nlc.session = .calling then s.openSession.adopt t .officeSet else s.dropNight)

/-- SESSION_END (R192). -/
def execSessionEnd (s : State) : Answered := .next s.takeSessionEnd

/-- HEAD_OFFICE_READ (R195). -/
def execHeadOfficeRead (target : Station) (tag bank index count : Nat) (s : State) : Answered :=
  .next (s.relayRead target tag bank index count)

/-- HEAD_OFFICE_BLOCK_ACK (R195). -/
def execHeadOfficeBlockAck (station : Station) (ref : BlockRef) (s : State) : Answered := .next (s.relayAck station ref)

/-- SESSION_DRAINED (R193). -/
def execSessionDrained (s : State) : Answered := .next s.testDrained

/-- JOURNAL_BLOCK_TIMER_EXPIRY (R198). -/
def execJournalBlockTimerExpiry (first : Seq) (count : Nat) (s : State) : Answered :=
  .next (s.journalBlockExpired first count)

/-- ACTIVITY_BLOCK_TIMER_EXPIRY (R199). -/
def execActivityBlockTimerExpiry (number : Nat) (s : State) : Answered := .next (s.activityBlockExpired number)

end Sys2Proof.Machine
end

