-- ==== Sys2Proof/Machine/StoreCommands.lean ====
section
/-!
DEFINITION. The commands of the item store (Chapter 1), the lookup unit (Chapter 3), the journal (Chapter 8) and the
label radio (Chapter 7).
-/

namespace Sys2Proof.Machine

/-! ## Item store -/

/-- ERASE_STAGED (R7). -/
def execEraseStaged (tag : Nat) (bank : BankNo) (s : State) : Answered := .next (s.runOrder tag bank .eraseStaged)

/-- BANK_ERASE_COMPLETE (R7). -/
def execBankEraseComplete (bank : BankNo) (s : State) : Answered := .next (s.eraseDone bank)

/-- DEPT (R10). -/
def execDept (tag : Nat) (bank : BankNo) (entries : List DeptItem) (s : State) : Answered :=
  .next (s.runOrder tag bank (.dept entries))

/-- ITEM_APPEND (R11). -/
def execItemAppend (tag : Nat) (bank : BankNo) (items : List AppendItem) (s : State) : Answered :=
  .next (s.runOrder tag bank (.itemAppend items))

/-- SEAL (R13). -/
def execSeal (tag : Nat) (bank : BankNo) (count day minute : Nat) (s : State) : Answered :=
  .next (s.runOrder tag bank (.seal count day minute))

/-- SWITCHOVER (R14, R15): performed when it is due. -/
def execSwitchover (s : State) : Answered := .next s.switchIfDue

/-! ## Lookup -/

/-- PRICE_QUERY (R53). -/
def execPriceQuery (src : Station) (tag code : Nat) (purpose : Purpose) (s : State) : Answered :=
  .next (s.deliver src .priceQuery fun s =>
    if s.is.recovered then s.answerQuery src tag code purpose else s.defer (.query src tag code purpose))

/-- PRICE_ANSWER (R54 to R57, R74). -/
def execPriceAnswer (src : Station) (tag gen : Nat) (item : ItemRecord) (level : Nat) (s : State) : Answered :=
  .next (s.deliver src .priceAnswer fun s =>
    let r := s.takeAnswer src tag gen item level
    match r.1 with
    | some (k, res) => r.2.lookupDone k res
    | none => r.2)

/-- QUERY_TIMER_EXPIRY (R58). -/
def execQueryTimerExpiry (line : TillNo) (s : State) : Answered :=
  let r := s.queryExpired line
  .next (match r.1 with
    | some res => r.2.lookupDone line res
    | none => r.2)

/-! ## Journal -/

/-- JOURNAL_GROUP_WRITTEN (R147). -/
def execJournalGroupWritten (s : State) : Answered := .next s.groupWritten

/-- JOURNAL_PAGE_ERASE_COMPLETE (R153, R155). -/
def execJournalPageEraseComplete (s : State) : Answered :=
  let owed := s.ju.owed.isSome
  let s := s.onJu JournalUnit.eraseComplete
  .next (if owed && s.ju.owed.isNone then s.opportunity else s)

/-! ## Labels -/

/-- REVIEW_WALK_END (R135): the verdicts, then a switchover that has become due (R14). -/
def execReviewWalkEnd (s : State) : Answered :=
  .next (if s.lrc.review.isSome then (s.onLrc fun l => l.walkEnd s.is s.sc.page).switchIfDue else s)

/-- The place of a label comes on a running radio (R125 to R127): a wake, sent on the label channel; an exchange still
open has had no answer. A place that has passed in this cycle does not come again. -/
def State.labelWake (label : Nat) (s : State) : State :=
  if s.lrc.running && s.lrc.due label then
    let r := s.lrc.noAnswer.wake s.is.activeBank s.is.gen label
    let s := s.onLrc fun _ => r.2
    match r.1 with
    | some m => s.emit (.label s.labelChannel m)
    | none => s
  else s

/-- LABEL_WAKE (R127). -/
def execLabelWake (label : Nat) (s : State) : Answered := .next (s.labelWake label)

/-- LABEL_ACK (R129, R130, R132, R136). -/
def execLabelAck (ack : LabelAck) (s : State) : Answered := .next (s.onLrc fun l => l.answer ack s.is.gen)

/-- LABEL_NO_ANSWER (R131). -/
def execLabelNoAnswer (s : State) : Answered := .next (s.onLrc LabelRadio.noAnswer)

/-- LABEL_CYCLE_END (R125, R138). -/
def execLabelCycleEnd (s : State) : Answered := .next (s.onLrc LabelRadio.cycleEnd)

end Sys2Proof.Machine
end

