-- ==== Sys2Proof/Machine/TillCommands.lean ====
section
/-!
DEFINITION. The requests of the till lines (Chapters 4 to 6), each after the checks of R64, R66 and R67 with its own
checks in their order.
-/

namespace Sys2Proof.Machine

/-- TILL_FRAME_DISCARDED (R64): no answer, and the line is left as it is. -/
def execTillFrameDiscarded (s : State) : Answered := .next s

/-- SIGN_ON (R68). -/
def execSignOn (line : TillNo) (tag cashier claimed : Nat) (s : State) : Answered :=
  .next (s.request line tag .signOn [checkCashier cashier, checkClaimed (some claimed)] fun s =>
    (s.onTill line fun t =>
      { t with session := some { cashier := cashier, level := max claimed (s.ceiling line) } }).answerTotals line tag)

/-- SIGN_OFF (R69). -/
def execSignOff (line : TillNo) (tag : Nat) (s : State) : Answered :=
  .next (s.request line tag .signOff [] fun s => (s.onTill line fun t => { t with session := none }).answerTotals line tag)

/-- The basket holds 64 lines (R72). -/
def State.basketFull (s : State) (line : TillNo) : Bool := decide (64 ≤ (s.basket line).lines.length)

/-- SCAN's own checks (R73). -/
def State.scanRefusal (s : State) (line : TillNo) (m : Measure) (claimed : Option Nat) : Option Refused :=
  firstRefusal [refuseIf (s.basketFull line) .basketFull, refuseIf (decide (m.value < 0) && s.lacks line claimed 1) .level]

/-- SCAN (R73, R74). A lookup of item code 0 needs no item store (R47, step 1). -/
def execScan (line : TillNo) (tag code : Nat) (measure : Measure) (claimed : Option Nat) (s : State) : Answered :=
  .next (s.request line tag .scan [checkItemCode code, checkMeasure measure, checkClaimed claimed] fun s =>
    match s.scanRefusal line measure claimed with
    | some r => s.refuse line tag r
    | none =>
      if code = 0 ∨ s.is.recovered = true then s.scanItem line tag code measure
      else s.waitRecovery line tag .scan (.scan line tag code measure))

/-- KEY's own checks against a department entry (R76). -/
def State.keyRefusal (s : State) (line : TillNo) (quantity : Int) (claimed : Option Nat) (e : DeptEntry) :
    Option Refused :=
  firstRefusal [refuseIf e.openPrice.isNone .level, refuseIf (e.openPrice.any (s.lacks line claimed)) .level,
    refuseIf (decide (quantity < 0) && s.lacks line claimed 1) .level]

/-- A KEY that finds room in the basket (R76). -/
def State.keyItem (line : TillNo) (tag dept price : Nat) (quantity : Int) (claimed : Option Nat) (s : State) : State :=
  match s.is.deptEntry dept with
  | none => s.refuse line tag .unknownItem
  | some e =>
    match s.keyRefusal line quantity claimed e with
    | some r => s.refuse line tag r
    | none => s.takeLine line tag (keyLine (s.nextLine line) s.stn s.is.gen dept e price quantity)

/-- KEY (R76). -/
def execKey (line : TillNo) (tag dept price : Nat) (quantity : Int) (claimed : Option Nat) (s : State) : Answered :=
  .next (s.request line tag .key
    [checkDept dept, checkPrice price, checkMeasure (.quantity quantity), checkClaimed claimed] fun s =>
    if s.basketFull line then s.refuse line tag .basketFull
    else if s.is.recovered then s.keyItem line tag dept price quantity claimed
    else s.waitRecovery line tag .key (.key line tag dept price quantity claimed))

/-- Void a line and answer LINE (R78). -/
def State.voidOf (line : TillNo) (tag : Nat) (l : Line) (s : State) : State :=
  (s.onBasket line fun b => b.voidLine l).answerLine line tag l.number

/-- The highest-numbered line not VOIDED (R78). -/
def Basket.lastLine (b : Basket) : Option Line := b.lines.reverse.find? fun l => !l.voided

/-- VOID_LAST (R78). -/
def execVoidLast (line : TillNo) (tag : Nat) (s : State) : Answered :=
  .next (s.request line tag .voidLast [] fun s =>
    match (s.basket line).lastLine with
    | none => s.refuse line tag .state
    | some l => s.voidOf line tag l)

/-- Line n of the basket, if it is there and not VOIDED. -/
def Basket.liveLine (b : Basket) (n : Nat) : Option Line := (b.line n).filter fun l => !l.voided

/-- VOID_LINE (R78). -/
def execVoidLine (line : TillNo) (tag number : Nat) (s : State) : Answered :=
  .next (s.request line tag .voidLine [checkLineNumber (s.basket line).lines.length number] fun s =>
    match (s.basket line).liveLine number with
    | none => s.refuse line tag .state
    | some l => s.voidOf line tag l)

/-- Reserve the OVERRIDE record, set the price and answer LINE, or refuse JOURNAL-FULL (R79). -/
def State.overrideOf (line : TillNo) (tag price level : Nat) (l : Line) (s : State) : State :=
  match s.reserveFor line 1 with
  | none => s.refuse line tag .journalFull
  | some s => (s.onBasket line fun b => b.overrideLine l price level).answerLine line tag l.number

/-- OVERRIDE (R79). -/
def execOverride (line : TillNo) (tag number price claimed : Nat) (s : State) : Answered :=
  .next (s.request line tag .override
    [checkLineNumber (s.basket line).lines.length number, checkPrice price, checkClaimed (some claimed)] fun s =>
    match (s.basket line).liveLine number with
    | none => s.refuse line tag .state
    | some l =>
      if s.lacks line (some claimed) l.requiredLevel then s.refuse line tag .level
      else if s.ju.recovered then s.overrideOf line tag price (s.level line (some claimed)) l
      else s.waitRecovery line tag .override (.override line tag price (s.level line (some claimed)) l))

/-- SUBTOTAL (R80). -/
def execSubtotal (line : TillNo) (tag : Nat) (s : State) : Answered :=
  .next (s.request line tag .subtotal [] fun s =>
    ((s.computeTax line).onBasket line fun b =>
      { b with state := if b.state = .opened then .subtotal else b.state }).answerTotals line tag)

/-- TENDER (R81). -/
def execTender (line : TillNo) (tag : Nat) (method : TenderMethod) (amount : Nat) (s : State) : Answered :=
  .next (s.request line tag .tender [checkAmount amount] fun s =>
    match s.tenderRefusal line method amount with
    | some r => s.refuse line tag r
    | none => s.applyTender line tag method amount)

/-- REFUND's own checks (R82). -/
def State.refundRefusal (s : State) (line : TillNo) (claimed : Option Nat) : Option Refused :=
  firstRefusal [refuseIf (decide (0 < (s.basket line).total)) .state,
    refuseIf (decide ((s.basket line).total < 0) && s.lacks line claimed 1) .level]

/-- REFUND (R82). -/
def execRefund (line : TillNo) (tag : Nat) (claimed : Option Nat) (s : State) : Answered :=
  .next (s.request line tag .refund [checkClaimed claimed] fun s =>
    match s.refundRefusal line claimed with
    | some r => s.refuse line tag r
    | none => s.closeSale line tag .refund (-(s.basket line).total) none 0)

/-- CANCEL (R83). -/
def execCancel (line : TillNo) (tag claimed : Nat) (s : State) : Answered :=
  .next (s.request line tag .cancel [checkClaimed (some claimed)] fun s =>
    if s.lacks line (some claimed) 1 then s.refuse line tag .level else s.closeCancel line tag)

/-- PARK (R111). -/
def execPark (line : TillNo) (tag : Nat) (s : State) : Answered :=
  .next (s.request line tag .park [] (State.parkBasket line tag))

/-- RECALL (R112 to R114). -/
def execRecall (line : TillNo) (tag ticket : Nat) (s : State) : Answered :=
  .next (s.request line tag .recall [checkTicket ticket] fun s =>
    match readTicket ticket with
    | none => s.refuse line tag .noTicket
    | some (owner, slot) =>
      if owner = s.stn then s.recallLocal line tag slot else s.recallRemote line tag ticket owner)

/-- ENQUIRE (R77). A lookup of item code 0 needs no item store (R47, step 1). -/
def execEnquire (line : TillNo) (tag code : Nat) (s : State) : Answered :=
  .next (s.request line tag .enquire [checkItemCode code] fun s =>
    if code = 0 ∨ s.is.recovered = true then s.enquireItem line tag code
    else s.waitRecovery line tag .enquire (.enquire line tag code))

end Sys2Proof.Machine
end

