-- ==== Sys2Proof/Machine/Dispatch.lean ====
section
/-! DEFINITION. One arm for each command, each one call of its meaning. -/

namespace Sys2Proof.Machine

def exec (i : Instr) (s : State) : Host.Outcome State Fault Refusal :=
  match i with
  | .powerOnReset pins cut => Sys2Proof.Machine.execPowerOnReset pins cut s
  | .itemStoreRecovery => Sys2Proof.Machine.execItemStoreRecovery s
  | .journalRecovery => Sys2Proof.Machine.execJournalRecovery s
  | .listenEnd => Sys2Proof.Machine.execListenEnd s
  | .announceTimer => Sys2Proof.Machine.execAnnounceTimer s
  | .contentionSlot cls carrier => Sys2Proof.Machine.execContentionSlot cls carrier s
  | .contentionRoundEnd => Sys2Proof.Machine.execContentionRoundEnd s
  | .transmissionSent => Sys2Proof.Machine.execTransmissionSent s
  | .garbledTransmission => Sys2Proof.Machine.execGarbledTransmission s
  | .roomOffered => Sys2Proof.Machine.execRoomOffered s
  | .badFrame f => Sys2Proof.Machine.execBadFrame f s
  | .ownNumberFrame => Sys2Proof.Machine.execOwnNumberFrame s
  | .frameNotDelivered src _ _ => Sys2Proof.Machine.execFrameNotDelivered src s
  | .duplicateHoldEnd => Sys2Proof.Machine.execDuplicateHoldEnd s
  | .duplicateListenEnd => Sys2Proof.Machine.execDuplicateListenEnd s
  | .peerStale n => Sys2Proof.Machine.execPeerStale n s
  | .peerAbsent n => Sys2Proof.Machine.execPeerAbsent n s
  | .announce src a => Sys2Proof.Machine.execAnnounce src a s
  | .priceNotice src gen => Sys2Proof.Machine.execPriceNotice src gen s
  | .setup src tag r => Sys2Proof.Machine.execSetup src tag r s
  | .clearSetup src tag => Sys2Proof.Machine.execClearSetup src tag s
  | .setupAnswer src _ _ => Sys2Proof.Machine.execSetupAnswer src s
  | .priceQuery src tag code purpose => Sys2Proof.Machine.execPriceQuery src tag code purpose s
  | .priceAnswer src tag gen item level => Sys2Proof.Machine.execPriceAnswer src tag gen item level s
  | .queryTimerExpiry line => Sys2Proof.Machine.execQueryTimerExpiry line s
  | .recallFrame src tag ticket till => Sys2Proof.Machine.execRecallFrame src tag ticket till s
  | .parkData src tag ticket part => Sys2Proof.Machine.execParkData src tag ticket part s
  | .release src tag ticket => Sys2Proof.Machine.execRelease src tag ticket s
  | .releaseAnswer src tag ticket outcome => Sys2Proof.Machine.execReleaseAnswer src tag ticket outcome s
  | .transferTimerExpiry slot => Sys2Proof.Machine.execTransferTimerExpiry slot s
  | .recallTimerExpiry line => Sys2Proof.Machine.execRecallTimerExpiry line s
  | .codeCheck src tag code => Sys2Proof.Machine.execCodeCheck src tag code s
  | .codeCheckReturn src _ code => Sys2Proof.Machine.execCodeCheckReturn src code s
  | .codeAnswer src tag code outcome => Sys2Proof.Machine.execCodeAnswer src tag code outcome s
  | .relay src tag part => Sys2Proof.Machine.execRelay src tag part s
  | .reassemblyTimerExpiry entry => Sys2Proof.Machine.execReassemblyTimerExpiry entry s
  | .office src tag msg k n => Sys2Proof.Machine.execOffice src tag msg k n s
  | .nightAssemblyTimeout src => Sys2Proof.Machine.execNightAssemblyTimeout src s
  | .blockAck src tag ref => Sys2Proof.Machine.execBlockAck src tag ref s
  | .readRecords src tag bank index count => Sys2Proof.Machine.execReadRecords src tag bank index count s
  | .records src _ _ => Sys2Proof.Machine.execRecords src s
  | .eraseStaged tag bank => Sys2Proof.Machine.execEraseStaged tag bank s
  | .bankEraseComplete bank => Sys2Proof.Machine.execBankEraseComplete bank s
  | .dept tag bank entries => Sys2Proof.Machine.execDept tag bank entries s
  | .itemAppend tag bank items => Sys2Proof.Machine.execItemAppend tag bank items s
  | .sealBank tag bank count day minute => Sys2Proof.Machine.execSeal tag bank count day minute s
  | .switchover => Sys2Proof.Machine.execSwitchover s
  | .reviewWalkEnd => Sys2Proof.Machine.execReviewWalkEnd s
  | .dayRoll => Sys2Proof.Machine.execDayRoll s
  | .tillFrameDiscarded _ _ => Sys2Proof.Machine.execTillFrameDiscarded s
  | .tillDataPacket line p => Sys2Proof.Machine.execTillDataPacket line p s
  | .signOn line tag cashier claimed => Sys2Proof.Machine.execSignOn line tag cashier claimed s
  | .signOff line tag => Sys2Proof.Machine.execSignOff line tag s
  | .scan line tag code measure claimed => Sys2Proof.Machine.execScan line tag code measure claimed s
  | .key line tag dept price quantity claimed => Sys2Proof.Machine.execKey line tag dept price quantity claimed s
  | .voidLast line tag => Sys2Proof.Machine.execVoidLast line tag s
  | .voidLine line tag number => Sys2Proof.Machine.execVoidLine line tag number s
  | .override line tag number price claimed => Sys2Proof.Machine.execOverride line tag number price claimed s
  | .subtotal line tag => Sys2Proof.Machine.execSubtotal line tag s
  | .tender line tag method amount => Sys2Proof.Machine.execTender line tag method amount s
  | .refund line tag claimed => Sys2Proof.Machine.execRefund line tag claimed s
  | .cancel line tag claimed => Sys2Proof.Machine.execCancel line tag claimed s
  | .park line tag => Sys2Proof.Machine.execPark line tag s
  | .recallTicket line tag ticket => Sys2Proof.Machine.execRecall line tag ticket s
  | .enquire line tag code => Sys2Proof.Machine.execEnquire line tag code s
  | .journalGroupWritten => Sys2Proof.Machine.execJournalGroupWritten s
  | .journalPageEraseComplete => Sys2Proof.Machine.execJournalPageEraseComplete s
  | .labelWake label => Sys2Proof.Machine.execLabelWake label s
  | .labelAck ack => Sys2Proof.Machine.execLabelAck ack s
  | .labelNoAnswer => Sys2Proof.Machine.execLabelNoAnswer s
  | .labelCycleEnd => Sys2Proof.Machine.execLabelCycleEnd s
  | .join addr => Sys2Proof.Machine.execJoin addr s
  | .code addr chars => Sys2Proof.Machine.execCode addr chars s
  | .guestData addr p => Sys2Proof.Machine.execGuestData addr p s
  | .leave addr => Sys2Proof.Machine.execLeave addr s
  | .guestRateWindow => Sys2Proof.Machine.execGuestRateWindow s
  | .codeCheckTimerExpiry entry => Sys2Proof.Machine.execCodeCheckTimerExpiry entry s
  | .admissionExpiry entry => Sys2Proof.Machine.execAdmissionExpiry entry s
  | .blockExpiry entry => Sys2Proof.Machine.execBlockExpiry entry s
  | .codeExpiry serial => Sys2Proof.Machine.execCodeExpiry serial s
  | .uplinkPacket p => Sys2Proof.Machine.execUplinkPacket p s
  | .uplinkFrameEnd => Sys2Proof.Machine.execUplinkFrameEnd s
  | .uplinkLinkChange up rate => Sys2Proof.Machine.execUplinkLinkChange up rate s
  | .guestCreditWindow => Sys2Proof.Machine.execGuestCreditWindow s
  | .nightWindowEnter => Sys2Proof.Machine.execNightWindowEnter s
  | .nightWindowLeave => Sys2Proof.Machine.execNightWindowLeave s
  | .callTimerExpiry => Sys2Proof.Machine.execCallTimerExpiry s
  | .callHoldEnd => Sys2Proof.Machine.execCallHoldEnd s
  | .sessionAccept t => Sys2Proof.Machine.execSessionAccept t s
  | .sessionEnd => Sys2Proof.Machine.execSessionEnd s
  | .headOfficeRead target tag bank index count => Sys2Proof.Machine.execHeadOfficeRead target tag bank index count s
  | .headOfficeBlockAck station ref => Sys2Proof.Machine.execHeadOfficeBlockAck station ref s
  | .sessionDrained => Sys2Proof.Machine.execSessionDrained s
  | .journalBlockTimerExpiry first count => Sys2Proof.Machine.execJournalBlockTimerExpiry first count s
  | .activityBlockTimerExpiry number => Sys2Proof.Machine.execActivityBlockTimerExpiry number s
  | .guestAirPortMessageSent => Sys2Proof.Machine.execGuestAirPortMessageSent s

end Sys2Proof.Machine
end

