-- ==== Sys2Proof/Machine/Tick.lean ====
section
/-!
DEFINITION. The part's own time (log 1): one millisecond. Every timer loses 1 ms, the clock and the
peers' ages advance, and the commands that fall due are queued.
-/

namespace Sys2Proof.Machine

/-! ## One millisecond later -/

/-- A timer one millisecond later. Its last millisecond passes in the command of its expiry, so that what the timer
holds up still holds until then (log 1). -/
def countDown (ms : Nat) : Nat := if 1 < ms then ms - 1 else ms

/-- The clock runs on once set (R204). -/
def StationControl.tick (c : StationControl) : StationControl :=
  if c.clockState = .unset then c
  else if c.clockMs + 1 < 1000 then { c with clockMs := c.clockMs + 1 }
  else { c with clockMs := 0, clock := c.clock.map Time.next }

/-- Every entry but the own one ages (R44). -/
def PeerEntry.tick (own n : Station) (e : PeerEntry) : PeerEntry :=
  if n = own then e else { e with age := e.age.map (· + 1) }

def TrunkPort.tick (own : Station) (t : TrunkPort) : TrunkPort :=
  { t with trunkMs := countDown t.trunkMs, peers := updAll t.peers fun n e => e.tick own n }

def Bank.tick (b : Bank) : Bank := { b with erasing := b.erasing.map fun e => { e with ms := countDown e.ms } }

def ItemStore.tick (i : ItemStore) : ItemStore := { i with banks := updAll i.banks fun _ b => b.tick }

def LookupUnit.tick (l : LookupUnit) : LookupUnit :=
  { l with queries := updAll l.queries fun _ e => { e with ms := countDown e.ms } }

def BasketUnit.tick (b : BasketUnit) : BasketUnit :=
  { b with
    park := updAll b.park fun _ e => { e with ms := countDown e.ms }
    recalls := updAll b.recalls fun _ c => { c with ms := countDown c.ms } }

def JournalUnit.tick (j : JournalUnit) : JournalUnit :=
  { j with erasing := j.erasing.map fun e => { e with ms := countDown e.ms } }

/-- Cycles run while the radio runs; a review runs in either case (R133, R140). -/
def LabelRadio.tick (l : LabelRadio) : LabelRadio :=
  { l with
    cycleMs := if l.running then countDown l.cycleMs else l.cycleMs
    review := l.review.map fun v => { v with ms := countDown v.ms } }

def Forwarding.tick (f : Forwarding) : Forwarding :=
  { f with
    windowMs := countDown f.windowMs
    reasm := updAll f.reasm fun _ e => e.map fun r => { r with ms := countDown r.ms } }

def ClientEntry.tick (e : ClientEntry) : ClientEntry :=
  { e with
    admissionMs := countDown e.admissionMs, blockMs := countDown e.blockMs
    check := e.check.map fun k => { k with ms := countDown k.ms } }

def GuestUnit.tick (g : GuestUnit) : GuestUnit :=
  { g with
    rateMs := countDown g.rateMs
    clients := updAll g.clients fun _ e => e.tick
    codes := g.codes.map fun c => { c with validMs := countDown c.validMs } }

def NightLink.tick (n : NightLink) : NightLink :=
  { n with
    callMs := countDown n.callMs, holdMs := n.holdMs.map countDown
    blockTimers := n.blockTimers.map fun t => { t with ms := countDown t.ms }
    activity := n.activity.map fun e => { e with ms := countDown e.ms }
    assembly := updAll n.assembly fun _ a => a.map fun x => { x with ms := countDown x.ms } }

/-- The station one millisecond later, nothing yet taken. -/
def State.later (s : State) : State :=
  { s with
    now := s.now + 1, tp := s.tp.tick s.stn, is := s.is.tick, lu := s.lu.tick, bu := s.bu.tick, ju := s.ju.tick
    lrc := s.lrc.tick, fu := s.fu.tick, gu := s.gu.tick, nlc := s.nlc.tick, sc := s.sc.tick }

/-! ## What falls due -/

/-- A command when a condition holds. -/
def dueIf (b : Bool) (c : Instr) : List Instr := if b then [c] else []

/-- A timer reaches 0 in this millisecond. -/
def ends (ms : Nat) : Bool := decide (ms = 1)

/-- The trunk state's own timer (R36, R39, R40). -/
def TrunkPort.timerEnd (t : TrunkPort) : Instr :=
  match t.trunk with
  | .listening => .listenEnd
  | .active => .announceTimer
  | .dupHold => .duplicateHoldEnd
  | .dupListen => .duplicateListenEnd

/-- A peer reaches 5 s while PRESENT or 10 s while STALE (R44). -/
def State.peersDue (s : State) : List Instr :=
  (fins 16).flatMap fun n =>
    dueIf (decide (n ≠ s.stn) && decide ((s.peer n).state = .present) && decide ((s.peer n).age = some 4999)) (.peerStale n) ++
    dueIf (decide (n ≠ s.stn) && decide ((s.peer n).state = .stale) && decide ((s.peer n).age = some 9999)) (.peerAbsent n)

/-- The exchange position that begins in a millisecond of its slot, if one does: position p begins after 2.5 x p ms
(R125). -/
def positionAt (ms : Nat) : Option Nat :=
  let p := (2 * ms + 4) / 5
  if 5 * p / 2 = ms then some p else none

/-- The time passed since the cycle began, in ms. -/
def LabelRadio.elapsed (l : LabelRadio) : Nat := l.cycleLength - l.cycleMs

/-- The label index of the place that begins in this millisecond, if one does (R125). -/
def LabelRadio.placeNow (l : LabelRadio) : Option Nat :=
  (positionAt (l.elapsed % 20)).map fun p => l.elapsed / 20 + p * l.slotCount

/-- A position begins: the exchange of the one before it ends unanswered, and the label whose place it is wakes (R126,
R131). An unanswered exchange in the last position of a cycle ends at the instant of the cycle's end, and the manual
orders the two in no way: the cycle's end and its test for a sweep come first, and the miss is counted at the first
place of the next cycle (DESIGN CHOICE, log 56). -/
def LabelRadio.placesDue (l : LabelRadio) : List Instr :=
  if l.running then
    match l.placeNow with
    | some i =>
      dueIf l.exchange.isSome .labelNoAnswer ++
        dueIf (decide (i < 4096) && l.due i && (l.label i).wakes i l.cycle (l.period.getD 2)) (.labelWake i)
    | none => []
  else []

/-- The timers of the stores and the label radio. -/
def State.storesDue (s : State) : List Instr :=
  (fins 2).flatMap (fun b => dueIf ((s.is.bank b).erasing.any fun e => ends e.ms) (.bankEraseComplete b)) ++
    dueIf (s.ju.erasing.any fun e => ends e.ms) .journalPageEraseComplete ++
    dueIf (s.lrc.review.any fun v => ends v.ms) .reviewWalkEnd ++
    s.lrc.placesDue ++ dueIf (s.lrc.running && ends s.lrc.cycleMs) .labelCycleEnd

/-- The timers of tills, parked baskets and packets. -/
def State.tillsDue (s : State) : List Instr :=
  (fins 8).flatMap (fun k =>
    dueIf (decide (s.lu.queries[k].state ≠ .free) && ends s.lu.queries[k].ms) (.queryTimerExpiry k) ++
    dueIf (decide ((s.ctx k).phase ≠ .idle) && ends (s.ctx k).ms) (.recallTimerExpiry k)) ++
    (fins 16).flatMap (fun j =>
      dueIf (decide ((s.slot j).state = .inTransfer) && ends (s.slot j).ms) (.transferTimerExpiry j)) ++
    (fins 8).flatMap fun i => dueIf (s.fu.reasm[i].any fun e => ends e.ms) (.reassemblyTimerExpiry i)

/-- The timers of the guest unit and the uplink windows. -/
def State.guestsDue (s : State) : List Instr :=
  dueIf (ends s.fu.windowMs) .guestCreditWindow ++ dueIf (ends s.gu.rateMs) .guestRateWindow ++
    (fins 128).flatMap (fun i =>
      dueIf ((s.client i).check.any fun k => ends k.ms) (.codeCheckTimerExpiry i) ++
      dueIf (ends (s.client i).admissionMs) (.admissionExpiry i) ++
      dueIf (ends (s.client i).blockMs) (.blockExpiry i)) ++
    s.gu.codes.flatMap fun c => dueIf (ends c.validMs) (.codeExpiry c.serial)

/-- The timers of the night link. -/
def State.nightDue (s : State) : List Instr :=
  dueIf (decide (s.nlc.session = .calling) && ends s.nlc.callMs) .callTimerExpiry ++
    dueIf (s.nlc.holdMs.any ends) .callHoldEnd ++
    s.nlc.blockTimers.flatMap (fun t => dueIf (ends t.ms) (.journalBlockTimerExpiry t.first t.count)) ++
    s.nlc.activity.flatMap (fun e => dueIf (!e.returned && ends e.ms) (.activityBlockTimerExpiry e.number)) ++
    (fins 16).flatMap fun n => dueIf (s.nlc.assembly[n].any fun a => ends a.ms) (.nightAssemblyTimeout n)

/-- Places that can be offered (R34). -/
def State.roomDue (s : State) : Bool :=
  (!s.tp.keptA.isEmpty && decide (s.tp.qA.length < 8) && !s.tp.trunk.isDuplicate) ||
    (!s.tp.recordC.isEmpty && decide (s.tp.trunk = .active) && decide (s.tp.qC.length < 32))

/-- What the clock and the state itself make due (R14, R34, R188, R189, R193). -/
def State.clockDue (s : State) : List Instr :=
  dueIf (s.inWindow && !s.nlc.inside) .nightWindowEnter ++ dueIf (!s.inWindow && s.nlc.inside) .nightWindowLeave ++
    dueIf s.switchoverDue.isSome .switchover ++ dueIf s.dayDue.isSome .dayRoll ++
    dueIf s.roomDue .roomOffered ++ dueIf s.drained .sessionDrained

/-- The commands that the end of a millisecond brings: timers that ran out in it, then what the new time makes due. -/
def State.due (s : State) : List Instr :=
  dueIf (ends s.tp.trunkMs) s.tp.timerEnd ++ s.peersDue ++ s.storesDue ++ s.tillsDue ++ s.guestsDue ++ s.nightDue ++
    s.later.clockDue

/-- One millisecond passes. -/
def State.tick (s : State) : State := { s.later with pending := s.later.pending ++ s.due }

end Sys2Proof.Machine
end

