-- ==== Sys2Proof/Machine/Resume.lean ====
section
/-!
DEFINITION. What a step does on an empty queue (log 1): what waited for a recovery that has ended is taken up (sections
1.7 and 8.6, log 5); with none of it left, a millisecond passes.
-/

namespace Sys2Proof.Machine

/-- The recovery that this waits for has ended. -/
def Waiting.ready (s : State) : Waiting → Bool
  | .scan _ _ _ _ | .enquire _ _ _ | .key _ _ _ _ _ _ | .query _ _ _ _ | .order _ _ _ => s.is.recovered
  | .addLine _ _ _ | .override _ _ _ _ _ | .recall _ _ _ _ | .ack _ => s.ju.recovered
  | .read _ _ bank _ _ | .officeRead _ bank _ _ => !s.readWaits bank

/-- Go on with what waited, from the point at which it needed the recovery; a till's request is no longer waiting
there. A RECALL starts anew, its basket EMPTY again first; that the owner's ABSENCE is judged again is the model's
(log 54). A PRICE QUERY is searched in ACTIVE alone (R53). -/
def State.takeUp (w : Waiting) (s : State) : State :=
  match w with
  | .scan k tag code m => (s.endRequest k).scanItem k tag code m
  | .enquire k tag code => (s.endRequest k).enquireItem k tag code
  | .key k tag dept price quantity claimed => (s.endRequest k).keyItem k tag dept price quantity claimed
  | .addLine k tag l => (s.endRequest k).takeLine k tag l
  | .override k tag price level l => (s.endRequest k).overrideOf k tag price level l
  | .recall k tag ticket owner =>
    ((s.endRequest k).onBasket k fun b => { b with state := .empty }).recallRemote k tag ticket owner
  | .query src tag code purpose => if s.tp.trunk = .active then s.answerQuery src tag code purpose else s
  | .read src tag bank index count => s.answerRead src tag bank index count
  | .officeRead tag bank index count => s.runRead tag bank index count
  | .order tag b o => s.runOrder tag b o
  | .ack ref => s.takeAck ref

/-- What a step does on an empty queue: the first of what waited whose recovery has ended is taken up; else time
passes. -/
def State.idle (s : State) : State :=
  match s.deferred.find? (Waiting.ready s) with
  | some w => State.takeUp w { s with deferred := s.deferred.erase w }
  | none => s.tick

end Sys2Proof.Machine
end

