-- ==== Sys2Proof/Safety.lean ====
section
/-!
DEFINITION. What the manual promises of the part at every moment, each as a property of one state, and what a request
of a till is; the statements for the provers speak in these words.
-/

namespace Sys2Proof.Machine

/-- R144: the four counts account for every record slot. -/
def JournalUnit.AccountsClose (j : JournalUnit) : Prop := j.used + j.reserved + j.free + j.erasingCount = 65536

/-- Table 2-6 and R33: each queue within its capacity; at most one ANNOUNCE waits, in the A queue or kept by its
block. -/
def TrunkPort.QueuesFit (t : TrunkPort) : Prop :=
  t.qA.length ≤ 8 ∧ t.qB.length ≤ 16 ∧ t.qC.length ≤ 32 ∧ (t.qA ++ t.keptA).countP Frame.isAnnounce ≤ 1

/-- R35, R36, R38: out of ACTIVE the port sends nothing and holds no class B or C frame; in DUPLICATE it holds no
frame at all. -/
def TrunkPort.SilentUnlessActive (t : TrunkPort) : Prop :=
  (t.trunk ≠ .active → t.sending = none ∧ t.qB = [] ∧ t.qC = []) ∧
    (t.trunk.isDuplicate = true → t.qA = [] ∧ t.keptA = [])

/-- A valid entry of the remote cache is one that R49 allows, given the station number and the peer table. -/
def CacheEntry.Allowed (own : Station) (peers : Vector PeerEntry 16) (set : Fin 32) (e : CacheEntry) : Prop :=
  setOf e.code = set ∧ e.owner ≠ own ∧ peers[e.owner].state ≠ .absent ∧ peers[e.owner].gen ≤ e.gen

/-- R49: every valid entry names another station that is not ABSENT, at no lower generation than its recorded one, in
its code's set; no two of a set carry one code. -/
def State.CacheTrue (s : State) : Prop :=
  ∀ i : Fin 32,
    (∀ e, s.lu.cache[i].way0 = some e → e.Allowed s.stn s.tp.peers i) ∧
    (∀ e, s.lu.cache[i].way1 = some e → e.Allowed s.stn s.tp.peers i) ∧
    ∀ a b, s.lu.cache[i].way0 = some a → s.lu.cache[i].way1 = some b → a.code ≠ b.code

/-- What R172 says every client entry holds together, with the ranges of Table 10-2. -/
def ClientEntry.Holds (own : Station) (e : ClientEntry) : Prop :=
  (e.state = .free → e = { parity := e.parity }) ∧
  (∀ k, e.check = some k → e.state = .checking ∧ k.issuer ≠ own) ∧
  (0 < e.admissionMs ↔ e.state = .admitted) ∧
  (0 < e.blockMs ↔ e.state = .blocked) ∧
  (e.code.isSome = true ↔ e.state = .checking ∨ e.state = .admitted) ∧
  e.windowBytes ≤ 800 ∧ e.strikes ≤ 16

/-- R172: every client entry holds together, and no two that are not FREE carry one client address. -/
def State.ClientsHold (s : State) : Prop :=
  (∀ i : Fin 128, s.gu.clients[i].Holds s.stn) ∧
  ∀ i j : Fin 128, s.gu.clients[i].state ≠ .free → s.gu.clients[j].state ≠ .free →
    s.gu.clients[i].addr = s.gu.clients[j].addr → i = j

/-- R178, R180: at most 256 codes, no two of one serial, each used at most twice. -/
def GuestUnit.CodesHold (g : GuestUnit) : Prop :=
  g.codes.length ≤ 256 ∧ (g.codes.map CodeEntry.serial).Nodup ∧ ∀ c ∈ g.codes, c.uses ≤ 2 ∧ c.serial ≤ 9999

/-- R15, R23, R24: after recovery at most one bank is ACTIVE, it is the one selected, and the price generation is its
seal generation, or 0 when there is none. -/
def ItemStore.GenerationTrue (i : ItemStore) : Prop :=
  i.recovered = true →
    i.selected = i.activeNo ∧ i.gen = (i.activeNo.map fun b => (i.bank b).sealGen).getD 0 ∧
      ¬((i.bank 0).state = .active ∧ (i.bank 1).state = .active)

/-- R2, R4, R13: a bank whose SEAL word is written holds no incomplete record. -/
def ItemStore.SealedWhole (i : ItemStore) : Prop := ∀ b : BankNo, (i.bank b).sealWord.read.isSome = true → (i.bank b).tail = []

/-- Every sparse table and every flag set is in its canonical form, so that equal contents are equal data. -/
def State.TablesCanonical (s : State) : Prop :=
  (∀ b : BankNo, Tbl.wf none (s.is.bank b).depts = true) ∧ Flags.wf s.is.accessed = true ∧
    Flags.wf s.is.activity = true ∧ Tbl.wf none s.ju.words = true ∧ Tbl.wf .erased s.ju.slots = true ∧
    Tbl.wf {} s.lrc.labels = true

/-- R169: the guest credit never falls below -1,518, never exceeds what the fastest link and the largest share grant,
and is 0 throughout a session OPEN or CLOSING and while the station is UNSET; every queued guest packet has a packet's
length. -/
def State.CreditKept (s : State) : Prop :=
  -1518 ≤ s.fu.credit ∧ s.fu.credit ≤ 6250000 ∧ (s.nlc.session.holdsCredit = true → s.fu.credit = 0) ∧
    (s.sc.page = none → s.fu.credit = 0) ∧ ∀ p ∈ s.fu.upGuest, p.len ≤ 1500

/-- Table 12-2: every counter lies in 0 to 4,294,967,295. -/
def Counters.Within (c : Counters) : Prop :=
  c.badFrames ≤ u32Max ∧ c.collisions ≤ u32Max ∧ c.duplicateEntries ≤ u32Max ∧ c.droppedTill ≤ u32Max ∧
    c.droppedGuest ≤ u32Max ∧ c.droppedOffice ≤ u32Max ∧ c.noCarrier ≤ u32Max ∧ c.lostSnapshots ≤ u32Max ∧
    c.lostTransfers ≤ u32Max ∧ c.codesNotIssued ≤ u32Max ∧ c.codesNotReturned ≤ u32Max ∧ c.nightDropped ≤ u32Max ∧
    c.callsFailed ≤ u32Max ∧ c.sessionsOpened ≤ u32Max ∧ c.readsDropped ≤ u32Max

/-- No counter of `a` is above its fellow in `b`. -/
def Counters.NoneFalls (a b : Counters) : Prop :=
  a.badFrames ≤ b.badFrames ∧ a.collisions ≤ b.collisions ∧ a.duplicateEntries ≤ b.duplicateEntries ∧
    a.droppedTill ≤ b.droppedTill ∧ a.droppedGuest ≤ b.droppedGuest ∧ a.droppedOffice ≤ b.droppedOffice ∧
    a.noCarrier ≤ b.noCarrier ∧ a.lostSnapshots ≤ b.lostSnapshots ∧ a.lostTransfers ≤ b.lostTransfers ∧
    a.codesNotIssued ≤ b.codesNotIssued ∧ a.codesNotReturned ≤ b.codesNotReturned ∧
    a.nightDropped ≤ b.nightDropped ∧ a.callsFailed ≤ b.callsFailed ∧ a.sessionsOpened ≤ b.sessionsOpened ∧
    a.readsDropped ≤ b.readsDropped

/-- The till line, tag and kind of a till's request (Table 4-2). -/
def requestOf : Instr → Option (TillNo × Nat × ReqKind)
  | .signOn k t _ _ => some (k, t, .signOn)
  | .signOff k t => some (k, t, .signOff)
  | .scan k t _ _ _ => some (k, t, .scan)
  | .key k t _ _ _ _ => some (k, t, .key)
  | .voidLast k t => some (k, t, .voidLast)
  | .voidLine k t _ => some (k, t, .voidLine)
  | .override k t _ _ _ => some (k, t, .override)
  | .subtotal k t => some (k, t, .subtotal)
  | .tender k t _ _ => some (k, t, .tender)
  | .refund k t _ => some (k, t, .refund)
  | .cancel k t _ => some (k, t, .cancel)
  | .park k t => some (k, t, .park)
  | .recallTicket k t _ => some (k, t, .recall)
  | .enquire k t _ => some (k, t, .enquire)
  | _ => none

/-- A request on line k passes the checks of R66 that come before the field checks. -/
def State.Accepts (s : State) (k : TillNo) (kind : ReqKind) : Prop :=
  s.isSet = true ∧ s.lineEnabled k = true ∧ (s.till k).outstanding = none ∧
    (if kind = .signOn then (s.till k).session = none
     else (s.till k).session.isSome = true ∧ kind.takenIn (s.till k).basket.state = true)

/-- The station is ACTIVE on the trunk and n is another station's number: a frame of n addressed here is delivered
(R29). -/
def State.Hears (s : State) (n : Station) : Prop := s.tp.trunk = .active ∧ n ≠ s.stn

/-- A waiting frame that holds a parked basket's release, RELEASED (R119). -/
def Frame.isReleased (f : Frame) : Bool :=
  match f.payload with
  | .releaseAnswer _ .released => true
  | _ => false

/-- A waiting frame that grants a use of the own code `serial` (R182). -/
def Frame.grantsUse (serial : Nat) (f : Frame) : Bool :=
  match f.payload with
  | .codeAnswer c .ok => decide (c.serial = serial)
  | _ => false

/-- A waiting frame that gives a use back to its issuer (R182). -/
def Frame.givesUseBack (f : Frame) : Bool :=
  match f.payload with
  | .codeCheck .giveBack _ => true
  | _ => false

/-- A waiting RELAY part of a TILL packet (R164). -/
def Frame.isTillRelay (f : Frame) : Bool :=
  match f.payload with
  | .relay p => decide (p.origin = .till)
  | _ => false

/-- The sum of a number over a list. -/
def sumOf {α : Type} (n : α → Nat) (l : List α) : Nat := (l.map n).sum

/-! ## What holds what the journal has reserved (R144, second half) -/

/-- The lines are numbered from 1 on in the order taken (R72). -/
def Numbered (ls : List Line) : Prop := ls.map (fun l => l.number) = List.range' 1 ls.length

/-- A basket, EMPTY or RECALLING, holds no line and no record; any other holds as many records as its group will take
(R74, R79, R146). -/
def Basket.Holds (b : Basket) : Prop :=
  if b.state = .empty ∨ b.state = .recalling then b.lines = [] ∧ b.held = 0
  else b.lines ≠ [] ∧ Numbered b.lines ∧ b.held = recordsOf b.lines

/-- A till's recall context holds no record while IDLE and 65 while ASKING, and one not IDLE goes with a RECALLING
basket and a request that waits on it (R112, R114). -/
def RecallCtx.HoldsFor (c : RecallCtx) (t : TillRec) : Prop :=
  (c.phase = .idle → c.reserved = 0) ∧ (c.phase = .asking → c.reserved = 65) ∧
    (c.phase ≠ .idle → t.basket.state = .recalling ∧ ∃ o, t.outstanding = some o ∧ o.wait = .recall)

/-- A park entry holds the records of its basket's group, and an ABANDONING one its ABANDON record (R111, R120). -/
def ParkEntry.HoldsRecords (e : ParkEntry) : Prop :=
  (e.state = .free → e.held = 0) ∧ (e.state = .abandoning → e.held = 1) ∧
    (e.state = .parked ∨ e.state = .inTransfer →
      ∃ c, e.content = some c ∧ c.lines ≠ [] ∧ Numbered c.lines ∧ e.held = recordsOf c.lines)

/-- A group waits for a till whose request waits on its close, or for an ABANDONING entry, and has as many records as
its holder holds (R147). -/
def Group.Waits (g : Group) (b : BasketUnit) : Prop :=
  match g.holder with
  | .till k => g.bodies.length = b.tills[k].basket.held ∧ b.tills[k].basket.state ≠ .empty ∧
      b.tills[k].basket.state ≠ .recalling ∧ ∃ o, b.tills[k].outstanding = some o ∧ o.wait = .close
  | .park j => b.park[j].state = .abandoning ∧ g.bodies.length = 1

/-- What is kept for a recovery is the request that its till waits on (log 5). -/
def Waiting.IsOf (w : Waiting) (b : BasketUnit) : Prop :=
  ∀ k : TillNo, w.tillOf = some k → (∃ o, b.tills[k].outstanding = some o ∧ o.wait = .recovery) ∧
    match w with
    | .recall _ _ _ _ => b.tills[k].basket.state = .recalling
    | .addLine _ _ l => l.overrides = [] ∧ l.number = b.tills[k].basket.lines.length + 1
    | .override _ _ _ _ l => l ∈ b.tills[k].basket.lines
    | _ => True

/-- R144, second half: the reserved count is the sum of what the baskets, the park entries and the recalls hold, a
queued group's records being those of its basket or entry; and each holds what its state says. -/
structure State.HoldersAgree (s : State) : Prop where
  sum : s.ju.reserved = sumOf (fun t : TillRec => t.basket.held) s.bu.tills.toList +
    sumOf ParkEntry.held s.bu.park.toList + sumOf RecallCtx.reserved s.bu.recalls.toList
  baskets : ∀ k : TillNo, s.bu.tills[k].basket.Holds
  recalls : ∀ k : TillNo, s.bu.recalls[k].HoldsFor s.bu.tills[k]
  scans : ∀ k : TillNo, s.bu.tills[k].scan ≠ none → ∃ o, s.bu.tills[k].outstanding = some o ∧ o.wait = .lookup
  park : ∀ j : ParkNo, s.bu.park[j].HoldsRecords
  groups : (s.ju.queue.map Group.holder).Nodup ∧ ∀ g ∈ s.ju.queue, g.Waits s.bu
  kept : (s.deferred.filterMap Waiting.tillOf).Nodup ∧ ∀ w ∈ s.deferred, w.IsOf s.bu
  unread : s.ju.recovered = false → s.ju.reserved = 0 ∧ s.ju.queue = []

/-- A basket that another station hands over whole is numbered and comes with the records of its group: what R115 and
R146 make that station do. -/
def State.TransfersAgree (s : State) : Prop :=
  ∀ (k : TillNo) (x : ParkContent), s.bu.recalls[k].phase = .releasing → s.bu.recalls[k].content = some x →
    x.lines ≠ [] ∧ Numbered x.lines ∧ s.bu.recalls[k].reserved = recordsOf x.lines

/-! ## Tables -/

/-- R110: what a park entry's fields hold in each of its states. -/
def ParkEntry.Shaped (e : ParkEntry) : Prop :=
  (e.state = .free → e = {}) ∧ (e.state ≠ .free → e.content.isSome = true) ∧
    (e.state = .inTransfer → e.requester.isSome = true ∧ 0 < e.ms ∧ e.ms ≤ 300) ∧
    (e.state ≠ .inTransfer → e.requester = none ∧ e.ms = 0 ∧ e.abandonPending = false)

/-- R124: what a label entry's fields hold in each of its states, by the generation in force and whether a review
runs. -/
def LabelEntry.Holds (gen : Nat) (reviewing : Bool) (e : LabelEntry) : Prop :=
  (e.state = .current → e.confirmed = some gen) ∧ (e.state = .review → reviewing = true) ∧
    (e.state = .unbound ∨ e.state = .unchecked ∨ e.state = .stale → e.confirmed = none) ∧ e.failCount ≤ 6 ∧
    (e.state = .unchecked ∨ e.state = .stale ∨ e.state = .current → e.failCount < 6) ∧
    (e.state = .unreachable → e.failCount = 6)

/-- Every label's entry holds what its state says (R124). -/
def State.LabelsHold (s : State) : Prop := ∀ i : Nat, (s.lrc.label i).Holds s.is.gen s.lrc.review.isSome

/-- R41, R187, R197: the own peer entry is PRESENT in ACTIVE and ABSENT otherwise; the carrier is the one that the peer
table, setup and link give; the upload is IDLE unless the trunk state is ACTIVE and the carrier's entry shows its night
session, and it holds blocks only while UPLOADING. -/
def State.CarrierTrue (s : State) : Prop :=
  s.tp.peers[s.stn].state = (if s.tp.trunk = .active then .present else .absent) ∧ s.nlc.carrier = s.judge ∧
    (s.nlc.upload ≠ .idle ↔ s.tp.trunk = .active ∧ ∃ n f, s.nlc.carrier = some n ∧ s.tp.peers[n].flags = some f ∧
      f.night = true) ∧
    (s.nlc.upload ≠ .uploading → s.ju.inflight = [] ∧ s.nlc.blockTimers = [] ∧ s.nlc.activity = [])

/-- R168: what the uplink port makes of the state `s`. With a frame on the wire, or its link counted as down, nothing;
otherwise it starts the oldest TILL packet, else the oldest OFFICE one, else, with guest credit above 0, the oldest
GUEST one, whose frame of its length and 18 bytes, or 64 if that is more, the credit pays; and with none of these,
nothing. -/
def State.PortStarts (s t : State) : Prop :=
  (s.fu.upSending ≠ none ∨ s.linkCounts = false → t = s) ∧
  (s.fu.upSending = none → s.linkCounts = true →
    (∀ (p : Packet) (q : List Packet), s.fu.upTill = p :: q →
      t = { s with
        fu := { s.fu with upTill := q, upSending := some { origin := .till, packet := p } }
        out := s.out ++ [.uplink p] }) ∧
    (∀ (p : Packet) (q : List Packet), s.fu.upTill = [] → s.fu.upOffice = p :: q →
      t = { s with
        fu := { s.fu with upOffice := q, upSending := some { origin := .office, packet := p } }
        out := s.out ++ [.uplink p] }) ∧
    (∀ (p : Packet) (q : List Packet), s.fu.upTill = [] → s.fu.upOffice = [] → s.fu.upGuest = p :: q →
      (0 < s.fu.credit →
        t = { s with
          fu := { s.fu with
            upGuest := q, upSending := some { origin := .guest, packet := p }
            credit := s.fu.credit - max (p.len + 18) 64 }
          out := s.out ++ [.uplink p] }) ∧
      (s.fu.credit ≤ 0 → t = s)) ∧
    (s.fu.upTill = [] → s.fu.upOffice = [] → s.fu.upGuest = [] → t = s))

/-- What every frame of another party does before its block takes it: it ends the round, and with it a class C sit-out
(R32) or the wait for the first round after entry to ACTIVE (R36). -/
def State.heard (s : State) : State := { s with tp := { s.tp with sitOut := false, roundLeft := false } }

end Sys2Proof.Machine
end

