-- ==== Sys2Proof/Certificates/Slice0/Obligations.lean ====
section
/-!
DEFINITION. The statements for the provers: what each command does, by the rules of the manual, and what every step
keeps. A next state is written as the old one with the fields that change; every other field is unchanged.
-/

open Sys2Proof Sys2Proof.Machine


/-! ## The queue and the part's own time -/

/-- The command at the front of the queue runs on the state with the rest of the queue (the model's own queue). -/
def Obligations.StepRunsTheFrontCommand : Prop :=
  ∀ (c : Instr) (rest : List Instr) (s : State), s.pending = c :: rest → step s = exec c { s with pending := rest }

/-- On an empty queue a step lets 1 ms pass: every timer above 1 ms loses 1, one at 1 brings the command of its expiry
(and stays until that runs), the peers age and a clock that is set runs on; the window, the switchover, the day roll,
offers of room and the drained session fall due by the new time; at a label position's start an open exchange ends
and the label whose place it is wakes. Instead, with something kept for a recovery that has ended, the first of it is
taken up from the point at which it waited, a RECALL whole, from its basket EMPTY on, a PRICE QUERY in ACTIVE alone
(R53). Model's choice (logs 1, 5, 28 and 54): the manual gives the times, not the step. -/
def Obligations.TimePassesOnAnEmptyQueue : Prop :=
  (∀ s : State, s.pending = [] →
    ((∀ w ∈ s.deferred, w.ready s = false) →
      ∃ t, step s = .next t ∧ t.now = s.now + 1 ∧ t.pending = s.due ∧
        t.tp = { s.tp with trunkMs := t.tp.trunkMs, peers := t.tp.peers } ∧
        (1 < s.tp.trunkMs → t.tp.trunkMs = s.tp.trunkMs - 1) ∧
        (∀ n : Station, t.tp.peers[n] =
          { s.tp.peers[n] with age := if n = s.stn then s.tp.peers[n].age else s.tp.peers[n].age.map (· + 1) }) ∧
        (s.sc.clockState = .unset → t.sc = s.sc) ∧
        (s.sc.clockState ≠ .unset → s.sc.clockMs < 999 → t.sc = { s.sc with clockMs := s.sc.clockMs + 1 }) ∧
        (s.sc.clockState ≠ .unset → 999 ≤ s.sc.clockMs →
          t.sc = { s.sc with clockMs := 0, clock := s.sc.clock.map Time.next }) ∧
        t.stn = s.stn ∧ t.out = s.out ∧ t.deferred = s.deferred ∧ t.freeIdx = s.freeIdx ∧
        (∀ less : Nat → Nat, (∀ n, less n = if 1 < n then n - 1 else n) →
          (∀ b : BankNo, t.is.bank b = { s.is.bank b with
            erasing := (s.is.bank b).erasing.map fun e => { e with ms := less e.ms } }) ∧
          t.is = { s.is with banks := t.is.banks } ∧
          (∀ k : TillNo, t.lu.queries[k] = { s.lu.queries[k] with ms := less s.lu.queries[k].ms } ∧
            t.bu.recalls[k] = { s.bu.recalls[k] with ms := less s.bu.recalls[k].ms }) ∧
          (∀ j : ParkNo, t.bu.park[j] = { s.bu.park[j] with ms := less s.bu.park[j].ms }) ∧
          t.lu.cache = s.lu.cache ∧ t.bu.tills = s.bu.tills ∧ t.bu.lostTransfers = s.bu.lostTransfers ∧
          t.ju = { s.ju with erasing := s.ju.erasing.map fun e => { e with ms := less e.ms } } ∧
          t.lrc = { s.lrc with
            cycleMs := if s.lrc.running then less s.lrc.cycleMs else s.lrc.cycleMs
            review := s.lrc.review.map fun v => { v with ms := less v.ms } } ∧
          (∀ i : Fin 8, t.fu.reasm[i] = s.fu.reasm[i].map fun e => { e with ms := less e.ms }) ∧
          t.fu = { s.fu with windowMs := less s.fu.windowMs, reasm := t.fu.reasm } ∧
          (∀ i : Fin 128, t.gu.clients[i] = { s.gu.clients[i] with
            admissionMs := less s.gu.clients[i].admissionMs, blockMs := less s.gu.clients[i].blockMs
            check := s.gu.clients[i].check.map fun k => { k with ms := less k.ms } }) ∧
          t.gu = { s.gu with
            rateMs := less s.gu.rateMs, clients := t.gu.clients
            codes := s.gu.codes.map fun c => { c with validMs := less c.validMs } } ∧
          (∀ n : Station, t.nlc.assembly[n] = s.nlc.assembly[n].map fun a => { a with ms := less a.ms }) ∧
          t.nlc = { s.nlc with
            callMs := less s.nlc.callMs, holdMs := s.nlc.holdMs.map less
            blockTimers := s.nlc.blockTimers.map fun x => { x with ms := less x.ms }
            activity := s.nlc.activity.map fun e => { e with ms := less e.ms }, assembly := t.nlc.assembly }) ∧
        (Instr.nightWindowEnter ∈ s.due ↔ t.inWindow = true ∧ s.nlc.inside = false) ∧
        (Instr.nightWindowLeave ∈ s.due ↔ t.inWindow = false ∧ s.nlc.inside = true) ∧
        (Instr.switchover ∈ s.due ↔ t.switchoverDue ≠ none) ∧ (Instr.dayRoll ∈ s.due ↔ t.dayDue ≠ none) ∧
        (Instr.roomOffered ∈ s.due ↔
          s.tp.keptA ≠ [] ∧ s.tp.qA.length < 8 ∧ s.tp.trunk.isDuplicate = false ∨
            s.tp.recordC ≠ [] ∧ s.tp.trunk = .active ∧ s.tp.qC.length < 32) ∧
        (Instr.sessionDrained ∈ s.due ↔ s.drained = true)) ∧
    (∀ (w : Waiting) (l r : List Waiting), s.deferred = l ++ w :: r → (∀ x ∈ l, x.ready s = false) →
      w.ready s = true → step s = .next (State.takeUp w { s with deferred := l ++ r }))) ∧
  (∀ s : State,
    (Instr.listenEnd ∈ s.due ↔ s.tp.trunk = .listening ∧ s.tp.trunkMs = 1) ∧
    (Instr.announceTimer ∈ s.due ↔ s.tp.trunk = .active ∧ s.tp.trunkMs = 1) ∧
    (Instr.duplicateHoldEnd ∈ s.due ↔ s.tp.trunk = .dupHold ∧ s.tp.trunkMs = 1) ∧
    (Instr.duplicateListenEnd ∈ s.due ↔ s.tp.trunk = .dupListen ∧ s.tp.trunkMs = 1) ∧
    (∀ n : Station,
      (Instr.peerStale n ∈ s.due ↔ n ≠ s.stn ∧ s.tp.peers[n].state = .present ∧ s.tp.peers[n].age = some 4999) ∧
      (Instr.peerAbsent n ∈ s.due ↔ n ≠ s.stn ∧ s.tp.peers[n].state = .stale ∧ s.tp.peers[n].age = some 9999) ∧
      (Instr.nightAssemblyTimeout n ∈ s.due ↔ ∃ a, s.nlc.assembly[n] = some a ∧ a.ms = 1)) ∧
    (∀ b : BankNo, Instr.bankEraseComplete b ∈ s.due ↔ ∃ e, (s.is.bank b).erasing = some e ∧ e.ms = 1) ∧
    (Instr.journalPageEraseComplete ∈ s.due ↔ ∃ e, s.ju.erasing = some e ∧ e.ms = 1) ∧
    (Instr.reviewWalkEnd ∈ s.due ↔ ∃ v, s.lrc.review = some v ∧ v.ms = 1) ∧
    (Instr.labelCycleEnd ∈ s.due ↔ s.lrc.running = true ∧ s.lrc.cycleMs = 1) ∧
    (∀ slots passed p : Nat, s.lrc.running = true → slots = s.lrc.slots.getD 512 → s.lrc.cycleMs + passed = slots * 20 →
      0 < s.lrc.cycleMs → p < 8 → passed % 20 = 5 * p / 2 →
      (Instr.labelNoAnswer ∈ s.due ↔ s.lrc.exchange ≠ none) ∧
      ∀ i : Nat, Instr.labelWake i ∈ s.due ↔
        i = passed / 20 + p * slots ∧ i < 4096 ∧ s.lrc.due i = true ∧
          (s.lrc.label i).wakes i s.lrc.cycle (s.lrc.period.getD 2) = true) ∧
    (∀ k : TillNo,
      (Instr.queryTimerExpiry k ∈ s.due ↔ s.lu.queries[k].state ≠ .free ∧ s.lu.queries[k].ms = 1) ∧
      (Instr.recallTimerExpiry k ∈ s.due ↔ s.bu.recalls[k].phase ≠ .idle ∧ s.bu.recalls[k].ms = 1)) ∧
    (∀ j : ParkNo, Instr.transferTimerExpiry j ∈ s.due ↔ s.bu.park[j].state = .inTransfer ∧ s.bu.park[j].ms = 1) ∧
    (∀ i : Fin 8, Instr.reassemblyTimerExpiry i ∈ s.due ↔ ∃ e, s.fu.reasm[i] = some e ∧ e.ms = 1) ∧
    (Instr.guestCreditWindow ∈ s.due ↔ s.fu.windowMs = 1) ∧ (Instr.guestRateWindow ∈ s.due ↔ s.gu.rateMs = 1) ∧
    (∀ i : Fin 128,
      (Instr.codeCheckTimerExpiry i ∈ s.due ↔ ∃ k, s.gu.clients[i].check = some k ∧ k.ms = 1) ∧
      (Instr.admissionExpiry i ∈ s.due ↔ s.gu.clients[i].admissionMs = 1) ∧
      (Instr.blockExpiry i ∈ s.due ↔ s.gu.clients[i].blockMs = 1)) ∧
    (∀ n : Nat, Instr.codeExpiry n ∈ s.due ↔ ∃ c ∈ s.gu.codes, c.serial = n ∧ c.validMs = 1) ∧
    (Instr.callTimerExpiry ∈ s.due ↔ s.nlc.session = .calling ∧ s.nlc.callMs = 1) ∧
    (Instr.callHoldEnd ∈ s.due ↔ s.nlc.holdMs = some 1) ∧
    (∀ (first : Seq) (count : Nat), Instr.journalBlockTimerExpiry first count ∈ s.due ↔
      ∃ x ∈ s.nlc.blockTimers, x.first = first ∧ x.count = count ∧ x.ms = 1) ∧
    (∀ n : Nat, Instr.activityBlockTimerExpiry n ∈ s.due ↔
      ∃ e ∈ s.nlc.activity, e.number = n ∧ e.returned = false ∧ e.ms = 1)) ∧
  (∀ (s : State) (k : TillNo) (tag : Nat) (u : State),
    u = { s with bu := { s.bu with tills := updAt s.bu.tills k fun t => { t with outstanding := none, scan := none } } } →
    (∀ code m, State.takeUp (.scan k tag code m) s = u.scanItem k tag code m) ∧
    (∀ code, State.takeUp (.enquire k tag code) s = u.enquireItem k tag code) ∧
    (∀ d p q l, State.takeUp (.key k tag d p q l) s = u.keyItem k tag d p q l) ∧
    (∀ l, State.takeUp (.addLine k tag l) s = u.takeLine k tag l) ∧
    (∀ p v l, State.takeUp (.override k tag p v l) s = u.overrideOf k tag p v l) ∧
    (∀ ticket owner, State.takeUp (.recall k tag ticket owner) s =
      State.recallRemote k tag ticket owner { s with bu := { s.bu with tills := updAt s.bu.tills k fun t =>
        { t with outstanding := none, scan := none, basket := { t.basket with state := .empty } } } }) ∧
    (∀ src code p,
      (s.tp.trunk = .active → State.takeUp (.query src tag code p) s = s.answerQuery src tag code p) ∧
      (s.tp.trunk ≠ .active → State.takeUp (.query src tag code p) s = s)) ∧
    (∀ src b i n, State.takeUp (.read src tag b i n) s = s.answerRead src tag b i n) ∧
    (∀ b i n, State.takeUp (.officeRead tag b i n) s = s.runRead tag b i n) ∧
    (∀ b o, State.takeUp (.order tag b o) s = s.runOrder tag b o) ∧
    (∀ ref, State.takeUp (.ack ref) s = s.takeAck ref))


/-! ## Chapter 2: the store trunk -/

/-- What the trunk port does with a frame handed to it, by class and trunk state (R33 to R35). The class of a frame is
that of its kind, a RELAY's that of its packet's origin class (R28, Table 2-2). -/
def Obligations.HandOverPlacesOrRefuses : Prop :=
  (∀ f : Frame,
    (f.frameClass = .a ↔
      (∃ a, f.payload = .announce a) ∨ (∃ g, f.payload = .priceNotice g) ∨ ∃ r, f.payload = .setupAnswer r) ∧
    (f.frameClass = .c ↔
      (∃ p, f.payload = .relay p ∧ (p.origin = .guest ∨ p.origin = .office)) ∨ (∃ m k n, f.payload = .office m k n) ∨
        (∃ b, f.payload = .blockAck b) ∨ ∃ es, f.payload = .records es) ∧
    (f.isAnnounce = true ↔ ∃ a, f.payload = .announce a) ∧
    (f.isGuestRelay = true ↔ ∃ p, f.payload = .relay p ∧ p.origin = .guest)) ∧
  ∀ (t : TrunkPort) (f : Frame),
    (t.trunk.isDuplicate = true ↔ t.trunk = .dupHold ∨ t.trunk = .dupListen) ∧
    (f.frameClass = .b → t.trunk = .active →
      t.handOver f = if t.qB.length < 16 then (.placed, { t with qB := t.qB ++ [f] }) else (.busy, t)) ∧
    (f.frameClass = .c → t.trunk = .active → t.qC.length < 32 →
      t.handOver f = (.placed, { t with qC := t.qC ++ [f] })) ∧
    (f.frameClass = .c → t.trunk = .active → 32 ≤ t.qC.length →
      t.handOver f =
        if f.isGuestRelay then (.drop, { t with guestDropped := bump t.guestDropped }) else (.wait, t)) ∧
    (f.frameClass ≠ .a → t.trunk ≠ .active → t.handOver f = (.noTrunk, t)) ∧
    (f.frameClass = .a → t.trunk.isDuplicate = true → t.handOver f = (.noTrunk, t)) ∧
    (f.frameClass = .a → t.trunk.isDuplicate = false → f.isAnnounce = false →
      t.handOver f =
        if t.qA.length < 8 then (.placed, { t with qA := t.qA ++ [f] })
        else (.wait, { t with keptA := t.keptA ++ [f] })) ∧
    (f.frameClass = .a → t.trunk.isDuplicate = false → f.isAnnounce = true →
      (∀ (l r : List Frame) (old : Frame), old.isAnnounce = true → l.any Frame.isAnnounce = false →
        r.any Frame.isAnnounce = false → t.qA = l ++ old :: r →
        t.handOver f = (.placed, { t with qA := l ++ f :: r })) ∧
      (∀ (l r : List Frame) (old : Frame), old.isAnnounce = true → l.any Frame.isAnnounce = false →
        r.any Frame.isAnnounce = false → t.qA.any Frame.isAnnounce = false → t.keptA = l ++ old :: r →
        t.handOver f = (.wait, { t with keptA := l ++ f :: r })) ∧
      (t.qA.any Frame.isAnnounce = false → t.keptA.any Frame.isAnnounce = false →
        t.handOver f =
          if t.qA.length < 8 then (.placed, { t with qA := t.qA ++ [f] })
          else (.wait, { t with keptA := t.keptA ++ [f] })))

/-- CONTENTION_SLOT: at its slot an ACTIVE station that hears no carrier starts the oldest frame of the highest
class it holds, where the slot's class allows that class; a class C frame waits during a sit-out.
CONTENTION_ROUND_END, and the good frame of another party (FRAME_NOT_DELIVERED), end the sit-out (R30, R32). In the
round in progress at its entry to ACTIVE the station starts nothing (R35, R36, R39). Model's readings: log 20. -/
def Obligations.ContentionStartsTheOldestOfTheHighestClass : Prop :=
  ∀ s : State, s.tp.trunk = .active → s.tp.sending = none →
    (∀ cls : FrameClass, exec (.contentionSlot cls true) s = .next s) ∧
    (s.tp.roundLeft = true → ∀ cls : FrameClass, exec (.contentionSlot cls false) s = .next s) ∧
    (s.tp.roundLeft = false →
      (∀ (f : Frame) (q : List Frame) (cls : FrameClass), s.tp.qA = f :: q →
        exec (.contentionSlot cls false) s = .next { s with tp := { s.tp with sending := some f } }) ∧
      (∀ (f : Frame) (q : List Frame) (cls : FrameClass), s.tp.qA = [] → s.tp.qB = f :: q → cls ≠ .a →
        exec (.contentionSlot cls false) s = .next { s with tp := { s.tp with sending := some f } }) ∧
      (∀ (f : Frame) (q : List Frame), s.tp.qA = [] → s.tp.qB = [] → s.tp.qC = f :: q →
        exec (.contentionSlot .c false) s =
          .next (if s.tp.sitOut then s else { s with tp := { s.tp with sending := some f } }))) ∧
    (s.tp.qA = [] → exec (.contentionSlot .a false) s = .next s) ∧
    (s.tp.qA = [] → s.tp.qB = [] → exec (.contentionSlot .b false) s = .next s) ∧
    (s.tp.qA = [] → s.tp.qB = [] → s.tp.qC = [] → exec (.contentionSlot .c false) s = .next s) ∧
    exec .contentionRoundEnd s = .next { s with tp := { s.tp with sitOut := false, roundLeft := false } } ∧
    ∀ (src : Station) (dst : Dest) (kind : FrameKind), src ≠ s.stn →
      exec (.frameNotDelivered src dst kind) s =
        .next { s with tp := { s.tp with sitOut := false, roundLeft := false } }

/-- TRANSMISSION_SENT: the frame leaves its queue, and a class C frame begins the sit-out (R31, R32).
GARBLED_TRANSMISSION: sending stops, the collision is counted and the frame stays at the head of its queue; a second
one within 1 s of an earlier one is, in ACTIVE, the entry to DUPLICATE that an own-number frame brings there, with the
collision counted (R31, R37, R38). Model's choice (log 18): exactly 1 s after counts as within. -/
def Obligations.FramesAreSentOrCollide : Prop :=
  (∀ (s : State) (f : Frame) (q : List Frame), s.tp.sending = some f →
      (f.frameClass = .a → s.tp.qA = f :: q →
        exec .transmissionSent s =
          .next { s with tp := { s.tp with sending := none, sitOut := false, qA := q }, out := s.out ++ [.trunk f] }) ∧
      (f.frameClass = .b → s.tp.qB = f :: q →
        exec .transmissionSent s =
          .next { s with tp := { s.tp with sending := none, sitOut := false, qB := q }, out := s.out ++ [.trunk f] }) ∧
      (f.frameClass = .c → s.tp.qC = f :: q →
        exec .transmissionSent s =
          .next { s with tp := { s.tp with sending := none, sitOut := true, qC := q }, out := s.out ++ [.trunk f] })) ∧
  (∀ (s : State) (f : Frame), s.tp.sending = some f →
      ((∀ m, s.tp.lastGarble = some m → m + 1000 < s.now) →
        exec .garbledTransmission s =
          .next { s with tp := { s.tp with
            sending := none, sitOut := false, collisions := bump s.tp.collisions, lastGarble := some s.now } }) ∧
      (∀ m, s.tp.lastGarble = some m → s.now ≤ m + 1000 →
        ∃ t, exec .garbledTransmission s = .next t ∧ t.tp.trunk = .dupHold ∧ t.tp.trunkMs = 60000 ∧
          t.tp.collisions = bump s.tp.collisions ∧ t.tp.duplicateEntries = bump s.tp.duplicateEntries ∧
          t.tp.sending = none ∧ t.tp.lastGarble = none ∧ t.tp.qA = [] ∧ t.tp.qB = [] ∧ t.tp.qC = [] ∧
          t.is = s.is ∧ t.lrc = s.lrc ∧ t.stn = s.stn) ∧
      (∀ m, s.tp.lastGarble = some m → s.now ≤ m + 1000 → s.tp.trunk = .active →
        exec .garbledTransmission s = exec .ownNumberFrame { s with tp := { s.tp with
          sending := none, sitOut := false, collisions := bump s.tp.collisions, lastGarble := some s.now } }))

/-- BAD_FRAME: a frame that any test of R27 fails is counted, and one that passes them all is not; nothing else but
the end of the round follows. Model's readings: logs 14 and 20. -/
def Obligations.BadFramesAreCounted : Prop :=
  ∀ (f : RawFrame) (s : State),
    (f.bytes.length < 8 ∨ checkOk f.bytes = false ∨ byteAt f.bytes 0 = 0 ∨ 18 < byteAt f.bytes 0 ∨
        512 < natOfBytes ((f.bytes.drop 4).take 2) ∨ natOfBytes ((f.bytes.drop 4).take 2) + 8 ≠ f.bytes.length ∨
        (15 < byteAt f.bytes 2 ∧ byteAt f.bytes 2 ≠ 255) ∨
        (byteAt f.bytes 0 ≤ 5 ∧ byteAt f.bytes 1 / 16 ≠ 1) ∨
        (6 ≤ byteAt f.bytes 0 ∧ byteAt f.bytes 0 ≤ 13 ∧ byteAt f.bytes 1 / 16 ≠ 2) ∨
        (byteAt f.bytes 0 = 14 ∧ f.origin = some .till ∧ byteAt f.bytes 1 / 16 ≠ 2) ∨
        (byteAt f.bytes 0 = 14 ∧ (f.origin = some .guest ∨ f.origin = some .office) ∧ byteAt f.bytes 1 / 16 ≠ 3) ∨
        (15 ≤ byteAt f.bytes 0 ∧ byteAt f.bytes 1 / 16 ≠ 3) →
      exec (.badFrame f) s =
        .next { s with tp := { s.tp with sitOut := false, roundLeft := false, badFrames := bump s.tp.badFrames } }) ∧
    (8 ≤ f.bytes.length → checkOk f.bytes = true →
      natOfBytes ((f.bytes.drop 4).take 2) ≤ 512 → natOfBytes ((f.bytes.drop 4).take 2) + 8 = f.bytes.length →
      (byteAt f.bytes 2 ≤ 15 ∨ byteAt f.bytes 2 = 255) →
      (1 ≤ byteAt f.bytes 0 ∧ byteAt f.bytes 0 ≤ 5 ∧ byteAt f.bytes 1 / 16 = 1 ∨
        6 ≤ byteAt f.bytes 0 ∧ byteAt f.bytes 0 ≤ 13 ∧ byteAt f.bytes 1 / 16 = 2 ∨
        byteAt f.bytes 0 = 14 ∧ f.origin = some .till ∧ byteAt f.bytes 1 / 16 = 2 ∨
        byteAt f.bytes 0 = 14 ∧ (f.origin = some .guest ∨ f.origin = some .office) ∧ byteAt f.bytes 1 / 16 = 3 ∨
        15 ≤ byteAt f.bytes 0 ∧ byteAt f.bytes 0 ≤ 18 ∧ byteAt f.bytes 1 / 16 = 3) →
      exec (.badFrame f) s = .next { s with tp := { s.tp with sitOut := false, roundLeft := false } })

/-- OWN_NUMBER_FRAME: heard while not sending, in LISTEN or ACTIVE, it takes the part into DUPLICATE: queues emptied,
own entry ABSENT, cache cleared, upload IDLE with its blocks returned, a carrier's session DAY (R37, R38, R187, R193,
R200). Each withdrawn frame's block acts: a RELEASED counts as a lost transfer (R119), a granted use is given back and a
withdrawn RETURN counted (R182), each TILL packet is counted once (R164); an OFFICE packet withdrawn from its first part
on is pending anew, one sent in part is dropped and counted, and so is one pending to the own number (R165); a night
message is pending from its first withdrawn part, ahead of the list, blocks removed and the messages past 32 counted
(R201); RECORDS wait again, 4 at most (R206). A till that waits on a query or a recall, or whose RECALL is kept for the
journal, is answered NO-TRUNK, the recalls' reservations released (R61, R75, R85, R119); each client whose check waits
is OPEN and told RETRY (R182). The 60 s hold and the 10 s listen of DUPLICATE: DUPLICATE_HOLD_END begins the listen, an
own-number frame in the listen begins a new hold, one in the hold or while sending changes nothing (R37, R39). Model's
readings: logs 5, 19, 20, 21, 23, 26, 59, 60, 64, 65 and 73. -/
def Obligations.OwnNumberBeginsAndHoldsDuplicate : Prop :=
  (∀ s : State, s.tp.sending = none → s.tp.trunk = .listening ∨ s.tp.trunk = .active →
      ∃ t, exec .ownNumberFrame s = .next t ∧
        t.tp.trunk = .dupHold ∧ t.tp.trunkMs = 60000 ∧ t.tp.duplicateEntries = bump s.tp.duplicateEntries ∧
        t.tp.qA = [] ∧ t.tp.qB = [] ∧ t.tp.qC = [] ∧ t.tp.keptA = [] ∧ t.tp.sending = none ∧ t.tp.sitOut = false ∧
        t.tp.lastGarble = none ∧ t.tp.peers[s.stn].state = .absent ∧
        (∀ n : Station, n ≠ s.stn → t.tp.peers[n] = s.tp.peers[n]) ∧
        t.tp.guestDropped = bumpBy s.tp.guestDropped (s.tp.qC.filter Frame.isGuestRelay).length ∧
        (∀ i : Fin 32, t.lu.cache[i] = {}) ∧
        (∀ k : TillNo, t.lu.queries[k].state = .free ∧ t.lu.queries[k].seq = s.lu.queries[k].seq) ∧
        (∀ k : TillNo, t.bu.recalls[k].phase = .idle ∧ t.bu.recalls[k].seq = s.bu.recalls[k].seq) ∧
        (∃ new, t.out = s.out ++ new ∧ ∀ (k : TillNo) (o : Outstanding), s.bu.tills[k].outstanding = some o →
          (s.lu.queries[k].state ≠ .free → s.bu.tills[k].scan ≠ none → s.bu.recalls[k].phase = .idle →
            s.deferred.any (Waiting.isRecall k) = false →
            .answer k o.tag (.refused .noTrunk) ∈ new ∧
              t.bu.tills[k] = { s.bu.tills[k] with outstanding := none, scan := none }) ∧
          (s.lu.queries[k].state = .free → s.bu.recalls[k].phase ≠ .idle ∨ s.deferred.any (Waiting.isRecall k) = true →
            .answer k o.tag (.refused .noTrunk) ∈ new ∧
              t.bu.tills[k] = { s.bu.tills[k] with
                outstanding := none, scan := none, basket := { s.bu.tills[k].basket with state := .empty } })) ∧
        (∀ k : TillNo, s.lu.queries[k].state = .free → s.bu.recalls[k].phase = .idle →
          s.deferred.any (Waiting.isRecall k) = false → t.bu.tills[k] = s.bu.tills[k]) ∧
        t.deferred = (s.deferred.filter fun w => (fins 8).all fun k => !w.isRecall k) ∧
        ((∀ k : TillNo, s.bu.recalls[k].phase = .idle → s.bu.recalls[k].reserved = 0) →
          t.ju.reserved = s.ju.reserved - sumOf (fun k : TillNo => s.bu.recalls[k].reserved) (fins 8) ∧
            t.ju.free = s.ju.free + min (sumOf (fun k : TillNo => s.bu.recalls[k].reserved) (fins 8)) s.ju.reserved) ∧
        t.bu.park = s.bu.park ∧
        (∀ i : Fin 128, t.gu.clients[i] =
          if s.gu.clients[i].state = .checking ∧ s.gu.clients[i].check ≠ none then
            { s.gu.clients[i] with state := .opened, code := none, check := none }
          else s.gu.clients[i]) ∧
        (∀ told : List AirMsg,
          told = ((fins 128).filter fun i =>
            decide (s.gu.clients[i].state = .checking) && s.gu.clients[i].check.isSome).map
              (fun i => .codeResult s.gu.clients[i].addr .retry) →
          (s.gu.airSending ≠ none → t.gu.airQueue = s.gu.airQueue ++ told ∧ t.gu.airSending = s.gu.airSending) ∧
          (s.gu.airSending = none → t.gu.airQueue = s.gu.airQueue ++ told.tail ∧ t.gu.airSending = told.head?)) ∧
        t.gu.codes = s.gu.codes.map (fun c =>
          { c with uses := c.uses - (s.tp.qB.filter (Frame.grantsUse c.serial)).length }) ∧
        (s.counters.Within →
          t.gu.notReturned = bumpBy s.gu.notReturned (s.tp.qB.filter Frame.givesUseBack).length ∧
          t.bu.lostTransfers = bumpBy s.bu.lostTransfers (s.tp.qB.filter Frame.isReleased).length ∧
          ∀ sent : List Withdrawn, (∀ w ∈ sent, w.origin = .till ∧ 1 ≤ w.first ∧ w.first ≤ w.last) →
            (∀ w ∈ sent.tail, w.first = 1) →
            s.tp.qB.filter Frame.isTillRelay = sent.flatMap (fun w =>
              (List.range' w.first (w.last + 1 - w.first)).map (relayFrame w.dest w.tag .till w.packet)) →
            t.fu.droppedTill = bumpBy s.fu.droppedTill sent.length) ∧
        (∀ (sent : List Withdrawn) (own : List OfficePending),
          own = s.fu.officePending.filter (fun e =>
            decide (e.dest = s.stn) && decide (s.tp.peers[s.stn].state ≠ .absent)) →
          (∀ w ∈ sent, w.origin = .office ∧ 1 ≤ w.first ∧ w.first ≤ w.last) → (∀ w ∈ sent.tail, w.first = 1) →
          (s.tp.qC.filter fun f => decide (f.owner = some .forward)) = sent.flatMap (fun w =>
            (List.range' w.first (w.last + 1 - w.first)).map (relayFrame w.dest w.tag .office w.packet)) →
          (sent = [] →
            t.fu.officePending = (s.fu.officePending.filter fun e => !own.contains e) ∧
              (s.counters.Within → t.fu.droppedOffice = bumpBy s.fu.droppedOffice own.length)) ∧
          (s.fu.officePending = [] → (∀ w ∈ sent, w.first = 1 ∧ w.dest ≠ s.stn) →
            t.fu.officePending = (sent.map fun w =>
              { packet := w.packet, dest := w.dest, tag := w.tag, next := 1 }).take 8 ∧
              (s.counters.Within → t.fu.droppedOffice = bumpBy s.fu.droppedOffice (sent.length - 8))) ∧
          (∀ (w : Withdrawn) (waits : OfficePending → Prop), sent = [w] → w.dest ≠ s.stn → own = [] →
            (∀ x, waits x ↔ x.dest = w.dest ∧ x.tag = w.tag ∧ x.packet = w.packet ∧ x.next = w.last + 1) →
            (∀ (l r : List OfficePending) (x : OfficePending), s.fu.officePending = l ++ x :: r → waits x →
              (∀ y ∈ l, ¬ waits y) →
              (w.first = 1 →
                t.fu.officePending = l ++ { x with next := 1 } :: r ∧
                  (s.counters.Within → t.fu.droppedOffice = s.fu.droppedOffice)) ∧
              (1 < w.first →
                t.fu.officePending = l ++ r ∧ (s.counters.Within → t.fu.droppedOffice = bump s.fu.droppedOffice))) ∧
            ((∀ x ∈ s.fu.officePending, ¬ waits x) →
              (w.first = 1 → s.fu.officePending.length < 8 →
                t.fu.officePending = s.fu.officePending ++
                    [{ packet := w.packet, dest := w.dest, tag := w.tag, next := 1 }] ∧
                  (s.counters.Within → t.fu.droppedOffice = s.fu.droppedOffice)) ∧
              (1 < w.first ∨ 8 ≤ s.fu.officePending.length →
                t.fu.officePending = s.fu.officePending ∧
                  (s.counters.Within → t.fu.droppedOffice = bump s.fu.droppedOffice))))) ∧
        (∀ e ∈ t.nlc.sendList, e.msg.isBlock = false) ∧
        (∀ (e : SendEntry) (m : Nat) (rest : List SendEntry), s.judge = s.nlc.carrier → s.nlc.carrier ≠ some s.stn →
          0 < m → e.msg.isBlock = false →
          s.tp.qC.filterMap Frame.nightPart = (List.range' e.next m).map (fun i => { e with next := i }) →
          s.nlc.sendList = { e with next := e.next + m } :: rest ∨
            s.nlc.sendList = rest ∧ (∀ x ∈ rest, x.msg ≠ e.msg ∨ x.tag ≠ e.tag) →
          t.nlc.sendList = (e :: rest.filter fun x => !x.msg.isBlock).take 32 ∧
            t.nlc.dropped = bumpBy s.nlc.dropped ((e :: rest.filter fun x => !x.msg.isBlock).length - 32)) ∧
        (∀ rs : List Frame, rs = (s.tp.qC.filter fun f => decide (f.payload.kind = .records)) →
          t.sc.pendingRecords = s.sc.pendingRecords ++ rs.take (4 - s.sc.pendingRecords.length) ∧
            (s.counters.Within →
              t.sc.readsDropped = bumpBy s.sc.readsDropped (rs.length - (4 - s.sc.pendingRecords.length)))) ∧
        t.sc = { s.sc with pendingRecords := t.sc.pendingRecords, readsDropped := t.sc.readsDropped } ∧
        (∃ rest : List Frame, (∀ f ∈ rest, f.owner = some .night) ∧
          t.tp.recordC = s.tp.recordC ++ (s.tp.qC.filter fun f => f.owner.isSome) ++ rest) ∧
        t.nlc.upload = .idle ∧
        (s.nlc.upload = .uploading →
          t.ju.inflight = [] ∧ t.ju.readPos = s.ju.head ∧ t.nlc.blockTimers = [] ∧ t.nlc.activity = [] ∧
            t.nlc.cursor = 0) ∧
        (s.nlc.upload ≠ .uploading → t.ju.inflight = s.ju.inflight ∧ t.ju.readPos = s.ju.readPos) ∧
        t.ju = { s.ju with
          reserved := t.ju.reserved, free := t.ju.free, inflight := t.ju.inflight, readPos := t.ju.readPos } ∧
        (s.nlc.carrier = some s.stn → s.tp.peers[s.stn].state ≠ .absent →
          t.nlc.session = .day ∧ t.nlc.carrier ≠ some s.stn ∧
            (s.nlc.session ≠ .day → ∀ e ∈ t.nlc.sendList, e.msg.boundForOffice = false)) ∧
        t.is = s.is ∧ t.lrc = s.lrc ∧ t.stn = s.stn ∧ t.now = s.now ∧ t.pending = s.pending) ∧
  (∀ s : State,
      (s.tp.trunk = .dupHold →
        exec .duplicateHoldEnd s = .next { s with tp := { s.tp with trunk := .dupListen, trunkMs := 10000 } }) ∧
      (s.tp.trunk = .dupListen → s.tp.sending = none →
        exec .ownNumberFrame s = .next { s with tp := { s.tp with trunk := .dupHold, trunkMs := 60000 } }) ∧
      (s.tp.trunk = .dupHold → exec .ownNumberFrame s = .next s) ∧
      (∀ f, s.tp.sending = some f → exec .ownNumberFrame s = .next s))

/-- LISTEN_END and DUPLICATE_LISTEN_END enter ACTIVE, and there and at ANNOUNCE_TIMER an ANNOUNCE of the values of
this moment is formed and waits in the A queue or with its block, and the own peer entry is PRESENT with age 0 and
the same values (R36, R39 to R41). At the entry the station takes no part in the round in progress, and before the
ANNOUNCE is formed the free places of the queues go to the records, as at ROOM_OFFERED (R34, R35). Model's readings:
logs 19 and 21. -/
def Obligations.AnnounceIsFormedInActive : Prop :=
  ∀ (c : Instr) (s : State),
    c = .listenEnd ∧ s.tp.trunk = .listening ∨ c = .duplicateListenEnd ∧ s.tp.trunk = .dupListen ∨
      c = .announceTimer ∧ s.tp.trunk = .active →
    ∃ t a, exec c s = .next t ∧ t.tp.trunk = .active ∧ t.tp.trunkMs = 2000 ∧
      t.tp.roundLeft = (if c = .announceTimer then s.tp.roundLeft else true) ∧
      (c ≠ .announceTimer → ∃ u,
        exec .roomOffered { s with tp := { s.tp with trunk := .active, trunkMs := 2000, roundLeft := true } } = .next u ∧
          t = u.formAnnounce) ∧
      a = ({ zone := (s.sc.page.map SetupRecord.zone).getD 0
             setupPresent := s.sc.page.isSome
             cabled := s.sc.page.any fun r => decide (r.uplink = .yes)
             linkUp := s.fu.linkUp && s.sc.page.any fun r => decide (r.uplink = .yes)
             gen := s.is.gen
             journalFree := s.ju.free
             journalLow := decide (s.ju.free ≤ 3276)
             subnet := s.sc.page.map SetupRecord.tillNet
             clock := s.sc.clock
             clockState := s.sc.clockState
             night := decide (s.nlc.session = .opened)
             unreachable := (s.lrc.labels.filter fun e => decide (e.2.state = .unreachable)).length } : AnnounceInfo) ∧
      (∃ f ∈ t.tp.qA ++ t.tp.keptA, f = { dest := .broadcast, tag := 0, payload := .announce a }) ∧
      t.tp.peers[s.stn] =
        { state := .present, zone := if a.zone = 0 then none else some a.zone
          flags := some { setupPresent := a.setupPresent, cabled := a.cabled, linkUp := a.linkUp
                          journalLow := a.journalLow, night := a.night }
          gen := a.gen, journalFree := some a.journalFree, subnet := a.subnet, clockState := some a.clockState
          unreachable := some a.unreachable, age := some 0 } ∧
      (∀ n : Station, n ≠ s.stn → t.tp.peers[n] = s.tp.peers[n]) ∧
      t.is = s.is ∧ t.lrc = s.lrc ∧ t.sc = { s.sc with pendingRecords := t.sc.pendingRecords } ∧ t.stn = s.stn ∧
      t.now = s.now ∧ t.pending = s.pending

/-- ANNOUNCE: entry s becomes PRESENT with age 0, takes the frame's values, and its recorded generation by the rule of
R42; no other entry changes, and the clock is adopted by the rule of R205 alone: a value of no higher clock state that
differs by 1 s or less is not; a clock that leaves UNSET on a SET station sets the day mark to the greatest day whose
window start it has reached (R189). PRICE_NOTICE raises a recorded generation and nothing else of the entry (R43);
PEER_STALE and PEER_ABSENT age an entry that is not the own one, an ABSENT one keeping its recorded generation and its
age, and losing its learned route and its cached prices (R44, Table 2-10). The recalls asked of a station that became
ABSENT fail, RECALL-FAILED (R119), the code checks asked of it end, RETRY (R182), and the OFFICE packets pending for it
are dropped and counted (R165). Model's readings: logs 2, 21, 60, 69, 74 and 83. -/
def Obligations.PeerEntriesFollowAnnouncesAndAge : Prop :=
  (∀ (src : Station) (a : AnnounceInfo) (s : State), src ≠ s.stn →
      ∃ t, exec (.announce src a) s = .next t ∧
        t.tp.peers[src] =
          { state := .present, zone := if a.zone = 0 then none else some a.zone
            flags := some { setupPresent := a.setupPresent, cabled := a.cabled, linkUp := a.linkUp
                            journalLow := a.journalLow, night := a.night }
            gen := if s.tp.peers[src].state = .absent then a.gen else max s.tp.peers[src].gen a.gen
            journalFree := some a.journalFree, subnet := a.subnet, clockState := some a.clockState
            unreachable := some a.unreachable, age := some 0 } ∧
        (∀ n : Station, n ≠ src → t.tp.peers[n] = s.tp.peers[n]) ∧
        t.fu.learned[src] = a.subnet ∧
        (∀ v, a.clock = some v → a.clockState ≠ .unset →
          s.sc.clockState.rank < a.clockState.rank ∨
            a.clockState = .officeSet ∧ (∃ own, s.sc.clock = some own ∧
              (own.day * 86400 + own.sec + 1 < v.day * 86400 + v.sec ∨
                v.day * 86400 + v.sec + 1 < own.day * 86400 + own.sec)) →
          t.sc.clock = some v ∧ t.sc.clockState = a.clockState ∧
            (s.sc.clockState = .unset → t.sc.dayMark = s.sc.page.map fun r =>
              if 60 * r.winStart ≤ v.sec then (v.day : Int) else (v.day : Int) - 1)) ∧
        (a.clock = none ∨ a.clockState = .unset ∨
          a.clockState.rank ≤ s.sc.clockState.rank ∧ (a.clockState ≠ .officeSet ∨ s.sc.clock = a.clock) →
          t.sc.clock = s.sc.clock ∧ t.sc.clockState = s.sc.clockState) ∧
        (∀ own v : Time, s.sc.clock = some own → a.clock = some v → a.clockState.rank ≤ s.sc.clockState.rank →
          own.day * 86400 + own.sec ≤ v.day * 86400 + v.sec + 1 →
          v.day * 86400 + v.sec ≤ own.day * 86400 + own.sec + 1 →
          t.sc.clock = s.sc.clock ∧ t.sc.clockState = s.sc.clockState) ∧
        t.tp.trunk = s.tp.trunk ∧ t.stn = s.stn ∧ t.now = s.now ∧ t.pending = s.pending) ∧
  ((∀ (src : Station) (g : Nat) (s : State), src ≠ s.stn →
      ∃ t, exec (.priceNotice src g) s = .next t ∧
        t.tp.peers[src] = { s.tp.peers[src] with gen := max s.tp.peers[src].gen g } ∧
        (∀ n : Station, n ≠ src → t.tp.peers[n] = s.tp.peers[n]) ∧
        (∀ (i : Fin 32) e, t.lu.cache[i].way0 = some e → e.owner = src → s.tp.peers[src].gen < g → g ≤ e.gen) ∧
        (∀ (i : Fin 32) e, t.lu.cache[i].way1 = some e → e.owner = src → s.tp.peers[src].gen < g → g ≤ e.gen) ∧
        t.is = s.is ∧ t.lrc = s.lrc ∧ t.sc = s.sc) ∧
    (∀ (n : Station) (s : State), n ≠ s.stn →
      (s.tp.peers[n].state = .present →
        ∃ t, exec (.peerStale n) s = .next t ∧ t.tp.peers[n] = { s.tp.peers[n] with state := .stale } ∧
          (∀ m : Station, m ≠ n → t.tp.peers[m] = s.tp.peers[m]) ∧ t.lu = s.lu ∧ t.is = s.is ∧ t.sc = s.sc) ∧
      (s.tp.peers[n].state = .stale →
        ∃ t, exec (.peerAbsent n) s = .next t ∧
          t.tp.peers[n] = { state := .absent, gen := s.tp.peers[n].gen, age := s.tp.peers[n].age } ∧
          (∀ m : Station, m ≠ n → t.tp.peers[m] = s.tp.peers[m]) ∧ t.fu.learned[n] = none ∧
          (∀ (i : Fin 32) e, t.lu.cache[i].way0 = some e → e.owner ≠ n) ∧
          (∀ (i : Fin 32) e, t.lu.cache[i].way1 = some e → e.owner ≠ n) ∧
          (∃ new, t.out = s.out ++ new ∧ ∀ (k : TillNo) (o : Outstanding), s.bu.recalls[k].phase ≠ .idle →
            s.bu.recalls[k].owner = n → s.bu.tills[k].outstanding = some o →
            .answer k o.tag (.refused .recallFailed) ∈ new ∧
              t.bu.tills[k] = { s.bu.tills[k] with
                outstanding := none, scan := none, basket := { s.bu.tills[k].basket with state := .empty } }) ∧
          (∀ failed : TillNo → Bool,
            (∀ k, failed k = (decide (s.bu.recalls[k].phase ≠ .idle) && decide (s.bu.recalls[k].owner = n))) →
            (∀ k : TillNo, t.bu.recalls[k] = if failed k then { seq := s.bu.recalls[k].seq } else s.bu.recalls[k]) ∧
            (∀ k : TillNo, failed k = false → t.bu.tills[k] = s.bu.tills[k]) ∧
            t.ju.reserved = s.ju.reserved - sumOf (fun k : TillNo => s.bu.recalls[k].reserved) ((fins 8).filter failed)) ∧
          (∀ (i : Fin 128) (x : CodeCheck), s.gu.clients[i].state = .checking → s.gu.clients[i].check = some x →
            x.issuer = n →
            t.gu.clients[i].state = .opened ∧ t.gu.clients[i].code = none ∧ t.gu.clients[i].check = none) ∧
          (s.judge = s.nlc.carrier → s.nlc.carrier ≠ some s.stn →
            (t.fu.officePending = s.fu.officePending.filter fun x => decide (x.dest ≠ n)) ∧
            t.fu.droppedOffice =
              bumpBy s.fu.droppedOffice (s.fu.officePending.filter fun x => decide (x.dest = n)).length ∧
            ∀ ends : Fin 128 → Bool,
              (∀ i, ends i = (decide (s.gu.clients[i].state = .checking) &&
                s.gu.clients[i].check.any fun x => decide (x.issuer = n))) →
              (∀ i : Fin 128, ends i = false → t.gu.clients[i] = s.gu.clients[i]) ∧
              ∀ told : List AirMsg,
                told = ((fins 128).filter ends).map (fun i => .codeResult s.gu.clients[i].addr .retry) →
                (s.gu.airSending ≠ none → t.gu.airQueue = s.gu.airQueue ++ told) ∧
                (s.gu.airSending = none → t.gu.airQueue = s.gu.airQueue ++ told.tail ∧ t.gu.airSending = told.head?)) ∧
          t.is = s.is ∧ t.sc = s.sc)))

/-- ROOM_OFFERED. Free places of the A queue go to the class A frames kept, in their order, but in DUPLICATE. In ACTIVE
the free places of the C queue go to the record in its order, one frame per place: to frames of one block, to each
block's next part in turn, an office packet or a night message leaving its list with its last part; a block with more
to hand waits behind the others; a frame that its block has withdrawn is passed over, and the place goes to the next
one. A block whose older part has a later turn hands it at the earlier one, and the two change turns, each of the parts
of one message or packet having its own. A message that leaves the send list is a sending opportunity of the upload
(R34, R165, R194, R197, R206). Model's readings: log 19. -/
def Obligations.RoomGoesToTheRecordInOrder : Prop :=
  (∀ s : State,
    (s.tp.trunk.isDuplicate = true → exec .roomOffered s = .next s) ∧
    (s.tp.trunk.isDuplicate = false → s.tp.recordC = [] ∨ s.tp.trunk = .listening ∨ 32 ≤ s.tp.qC.length →
      exec .roomOffered s = .next { s with tp := { s.tp with
        qA := s.tp.qA ++ s.tp.keptA.take (8 - s.tp.qA.length), keptA := s.tp.keptA.drop (8 - s.tp.qA.length) } })) ∧
  (∀ (s : State) (offered : TrunkPort → State → State), s.tp.trunk = .active → s.tp.keptA = [] →
    (∀ t u, offered t u = { u with tp := t }) →
    (∀ fs : List Frame, (∀ f ∈ fs, ∃ es, f.payload = .records es) → s.tp.recordC = fs → s.sc.pendingRecords = fs →
      exec .roomOffered s =
        .next (offered { s.tp with
            qC := s.tp.qC ++ fs.take (32 - s.tp.qC.length), recordC := fs.drop (32 - s.tp.qC.length) }
          { s with sc := { s.sc with pendingRecords := fs.drop (32 - s.tp.qC.length) } })) ∧
    (∀ (e : OfficePending) (part : Nat → Frame), (∀ k, part k = relayFrame e.dest e.tag .office e.packet k) →
      s.tp.recordC = [part e.next] → s.fu.officePending = [e] →
      (s.tp.qC.length = 31 → e.next < e.packet.relayParts →
        exec .roomOffered s =
          .next (offered { s.tp with qC := s.tp.qC ++ [part e.next], recordC := [part (e.next + 1)] }
            { s with fu := { s.fu with officePending := [{ e with next := e.next + 1 }] } })) ∧
      (e.next ≤ e.packet.relayParts → s.tp.qC.length + (e.packet.relayParts + 1 - e.next) ≤ 32 →
        exec .roomOffered s =
          .next (offered { s.tp with
              qC := s.tp.qC ++ (List.range (e.packet.relayParts + 1 - e.next)).map fun i => part (e.next + i)
              recordC := [] }
            { s with fu := { s.fu with officePending := [] } }))) ∧
    (∀ (e : SendEntry) (part : Nat → Frame), (∀ k, part k = frameTo e.dest e.tag (.office e.msg k e.n)) →
      e.frame = part e.next → s.tp.recordC = [part e.next] → s.nlc.sendList = [e] →
      (s.tp.qC.length = 31 → e.next < e.n →
        exec .roomOffered s =
          .next (offered { s.tp with qC := s.tp.qC ++ [part e.next], recordC := [part (e.next + 1)] }
            { s with nlc := { s.nlc with sendList := [{ e with next := e.next + 1 }] } })) ∧
      (e.next ≤ e.n → s.tp.qC.length + (e.n + 1 - e.next) ≤ 32 →
        exec .roomOffered s =
          .next (State.opportunity (offered { s.tp with
              qC := s.tp.qC ++ (List.range (e.n + 1 - e.next)).map fun i => part (e.next + i), recordC := [] }
            { s with nlc := { s.nlc with sendList := [] } })))) ∧
    (∀ (f : Frame) (es : List ReadEntry) (e : OfficePending) (m : SendEntry), f.payload = .records es →
      e.packet.relayParts ≤ e.next → m.frame = frameTo m.dest m.tag (.office m.msg m.next m.n) → m.n ≤ m.next →
      s.sc.pendingRecords = [f] → s.fu.officePending = [e] → s.nlc.sendList = [m] →
      (s.tp.recordC = [f, e.frame, m.frame] → s.tp.qC.length = 30 →
        exec .roomOffered s =
          .next (offered { s.tp with qC := s.tp.qC ++ [f, e.frame], recordC := [m.frame] }
            { s with sc := { s.sc with pendingRecords := [] }, fu := { s.fu with officePending := [] } })) ∧
      (s.tp.recordC = [f, e.frame, m.frame] → s.tp.qC.length ≤ 29 →
        exec .roomOffered s =
          .next (State.opportunity (offered { s.tp with qC := s.tp.qC ++ [f, e.frame, m.frame], recordC := [] }
            { s with
              sc := { s.sc with pendingRecords := [] }, fu := { s.fu with officePending := [] }
              nlc := { s.nlc with sendList := [] } }))) ∧
      (s.tp.recordC = [m.frame, e.frame, f] → s.tp.qC.length = 31 →
        exec .roomOffered s =
          .next (State.opportunity (offered { s.tp with qC := s.tp.qC ++ [m.frame], recordC := [e.frame, f] }
            { s with nlc := { s.nlc with sendList := [] } })))) ∧
    (∀ (f : Frame) (es : List ReadEntry), f.payload = .records es → s.sc.pendingRecords = [f] →
      (∀ (e : OfficePending), e.next < e.packet.relayParts → s.fu.officePending = [e] → s.tp.qC.length = 31 →
        s.tp.recordC = [e.frame, f] →
        exec .roomOffered s =
          .next (offered { s.tp with
              qC := s.tp.qC ++ [e.frame], recordC := [f, relayFrame e.dest e.tag .office e.packet (e.next + 1)] }
            { s with fu := { s.fu with officePending := [{ e with next := e.next + 1 }] } })) ∧
      (∀ ws : List Frame, (∀ w ∈ ws, w.owner = some .forward ∨ w.owner = some .night) → s.fu.officePending = [] →
        s.nlc.sendList = [] → s.tp.recordC = ws ++ [f] → s.tp.qC.length < 32 →
        exec .roomOffered s =
          .next (offered { s.tp with qC := s.tp.qC ++ [f], recordC := [] }
            { s with sc := { s.sc with pendingRecords := [] } })) ∧
      (∀ (w : Frame) (e : OfficePending), w.owner = some .forward → w.dest ≠ .station e.dest ∨ w.tag ≠ e.tag →
        s.fu.officePending = [e] → s.tp.recordC = [w, f] → s.tp.qC.length = 31 →
        exec .roomOffered s =
          .next (offered { s.tp with qC := s.tp.qC ++ [f], recordC := [e.frame] }
            { s with sc := { s.sc with pendingRecords := [] } })) ∧
      (∀ a a' b : SendEntry, s.fu.officePending = [] → s.nlc.sendList = [a, b] → a' = { a with next := a.next + 1 } →
        a.n = a.next + 1 → b.n ≤ b.next → (∀ x ∈ [a, a', b], x.frame = frameTo x.dest x.tag (.office x.msg x.next x.n)) →
        a.msg ≠ b.msg ∨ a.tag ≠ b.tag → s.tp.recordC = [b.frame, a.frame, a'.frame, f] →
        (s.tp.qC.length ≤ 28 → exec .roomOffered s =
          .next (State.opportunity (offered { s.tp with
              qC := s.tp.qC ++ [a.frame, a'.frame, b.frame, f], recordC := [] }
            { s with sc := { s.sc with pendingRecords := [] }, nlc := { s.nlc with sendList := [] } }))) ∧
        (s.tp.qC.length = 31 → exec .roomOffered s =
          .next (offered { s.tp with qC := s.tp.qC ++ [a.frame], recordC := [b.frame, a'.frame, f] }
            { s with nlc := { s.nlc with sendList := [a', b] } }))) ∧
      (∀ a a' b : OfficePending, s.nlc.sendList = [] → s.fu.officePending = [a, b] →
        a' = { a with next := a.next + 1 } → a.packet.relayParts = a.next + 1 → b.packet.relayParts ≤ b.next →
        a.dest ≠ b.dest ∨ a.tag ≠ b.tag → s.tp.recordC = [b.frame, a.frame, a'.frame, f] →
        (s.tp.qC.length ≤ 28 → exec .roomOffered s =
          .next (offered { s.tp with qC := s.tp.qC ++ [a.frame, a'.frame, b.frame, f], recordC := [] }
            { s with sc := { s.sc with pendingRecords := [] }, fu := { s.fu with officePending := [] } })) ∧
        (s.tp.qC.length = 31 → exec .roomOffered s =
          .next (offered { s.tp with qC := s.tp.qC ++ [a.frame], recordC := [b.frame, a'.frame, f] }
            { s with fu := { s.fu with officePending := [a', b] } }))) ∧
      (∀ a b c : SendEntry, s.fu.officePending = [] → s.nlc.sendList = [a, b, c] →
        (∀ x ∈ [a, b, c], x.frame = frameTo x.dest x.tag (.office x.msg x.next x.n) ∧ x.n ≤ x.next) →
        [a, b, c].Pairwise (fun x y => x.msg ≠ y.msg ∨ x.tag ≠ y.tag) →
        s.tp.recordC = [c.frame, a.frame, f, b.frame] →
        (s.tp.qC.length ≤ 28 → exec .roomOffered s =
          .next (State.opportunity (offered { s.tp with
              qC := s.tp.qC ++ [a.frame, b.frame, f, c.frame], recordC := [] }
            { s with sc := { s.sc with pendingRecords := [] }, nlc := { s.nlc with sendList := [] } }))) ∧
        (s.tp.qC.length = 31 → exec .roomOffered s =
          .next (State.opportunity (offered { s.tp with
              qC := s.tp.qC ++ [a.frame], recordC := [c.frame, f, b.frame] }
            { s with nlc := { s.nlc with sendList := [b, c] } }))))))


/-! ## Chapter 1: the item store -/

/-- ERASE_STAGED on a bank that may be erased begins an erase of 80 ms; on any other bank the result names the first
check that fails. BANK_ERASE_COMPLETE makes the bank ERASED and reports DONE under the order's tag. Model's
readings: logs 2 and 29. -/
def Obligations.EraseRunsAndReportsAtItsEnd : Prop :=
  ∀ (tag : Nat) (b : BankNo) (s : State), s.is.recovered = true →
    ((s.is.bank b).state = .erased ∨ (s.is.bank b).state = .filling ∨ (s.is.bank b).state = .torn ∨
        (s.is.bank b).state = .sealed ∨ (s.is.bank b).state = .retired ∧ s.lrc.review = none →
      exec (.eraseStaged tag b) s =
        .next { s with is := s.is.setBank b { s.is.bank b with
          erasing := some { tag := tag, ms := 80 }, labelUse := none, lastCode := none } }) ∧
    ((s.is.bank b).state = .erasing ∨ (s.is.bank b).state = .retired ∧ s.lrc.review ≠ none →
      exec (.eraseStaged tag b) s =
        .next (s.report (.orderResult s.stn tag (some
          { bank := b, outcome := .busy, written := 0, count := (s.is.bank b).count })) tag).switchIfDue) ∧
    ((s.is.bank b).state = .active →
      exec (.eraseStaged tag b) s =
        .next (s.report (.orderResult s.stn tag (some
          { bank := b, outcome := .inForce, written := 0, count := (s.is.bank b).records.length })) tag).switchIfDue) ∧
    (∀ e, (s.is.bank b).erasing = some e →
      exec (.bankEraseComplete b) s =
        .next ({ s with is := s.is.setBank b {} }.report (.orderResult s.stn e.tag (some
          { bank := b, outcome := .done, written := 0, count := 0 })) e.tag)) ∧
    ((s.is.bank b).erasing = none → exec (.bankEraseComplete b) s = .next s)

/-- DEPT and ITEM_APPEND to a bank in ERASED or FILLING run their entries in order, and the result tells how many were
written, the bank's record count and why the next was refused; on a bank in another state nothing is written and the
result names it: BUSY while ERASING, IN-FORCE for an ACTIVE bank, TORN for a TORN one, STATE for a SEALED or RETIRED
one. The run of a DEPT order: the entries before the first refused one are written, each for good; that one is refused
BAD-RECORD (a department above 99, or a level or tax class above 3), or DEPT-SET where its department is written
already; and the first entry of an ERASED bank opens it, with the intended generation, no label index used and no last
code. The run of an ITEM APPEND: the records before the first refused one are appended in block order, and that one is
refused by the first of BAD-RECORD (a field, an enumerated one among them, outside Table 1-2), FULL, OUT-OF-ORDER,
NO-DEPT and LABEL-TAKEN that holds of it; the label indexes used gain those of the records appended. A first entry or
record refused leaves the bank as it was. The first record of an ERASED bank would open it likewise, but such a bank has
no department entry, and the record is refused. -/
def Obligations.OrdersWriteUpToTheFirstRefused : Prop :=
  (∀ (tag : Nat) (b : BankNo) (s : State), s.is.recovered = true →
      (∀ (es : List DeptItem) (rs : List AppendItem) (o : OrderOutcome),
        (s.is.bank b).state = .erasing ∧ o = .busy ∨ (s.is.bank b).state = .active ∧ o = .inForce ∨
          (s.is.bank b).state = .torn ∧ o = .torn ∨
          ((s.is.bank b).state = .sealed ∨ (s.is.bank b).state = .retired) ∧ o = .state →
        exec (.dept tag b es) s =
          .next (s.report (.orderResult s.stn tag (some
            { bank := b, outcome := o, written := 0, count := (s.is.bank b).count })) tag).switchIfDue ∧
        exec (.itemAppend tag b rs) s =
          .next (s.report (.orderResult s.stn tag (some
            { bank := b, outcome := o, written := 0, count := (s.is.bank b).count })) tag).switchIfDue) ∧
      ((s.is.bank b).state = .erased ∨ (s.is.bank b).state = .filling →
        (∀ (es : List DeptItem) (b' : Bank) (n : Nat) (o : OrderOutcome),
          (s.is.bank b).runDept s.is.gen es 0 = (b', n, o) →
          exec (.dept tag b es) s =
            .next ({ s with is := s.is.setBank b b' }.report (.orderResult s.stn tag (some
              { bank := b, outcome := o, written := n, count := b'.records.length })) tag).switchIfDue) ∧
        ∀ (rs : List AppendItem) (b' : Bank) (n : Nat) (o : OrderOutcome),
          (s.is.bank b).runAppend s.is.gen rs 0 = (b', n, o) →
          exec (.itemAppend tag b rs) s =
            .next ({ s with is := s.is.setBank b b' }.report (.orderResult s.stn tag (some
              { bank := b, outcome := o, written := n, count := b'.records.length })) tag).switchIfDue)) ∧
  (∀ (gen : Nat) (b : Bank) (es : List DeptItem), b.state = .erased ∨ b.state = .filling →
      ∃ (k : Nat) (b' : Bank) (o : OrderOutcome), b.runDept gen es 0 = (b', k, o) ∧ k ≤ es.length ∧
        (∀ (j : Nat) (e : DeptItem), j < k → es[j]? = some e →
          e.bad = false ∧ b.deptEntry e.dept = none ∧ b'.deptEntry e.dept = some e.entry) ∧
        (∀ d : Nat, (∀ e ∈ es.take k, e.dept ≠ d) → b'.deptEntry d = b.deptEntry d) ∧
        (k = es.length → o = .done) ∧
        (∀ e : DeptItem, es[k]? = some e →
          (e.bad = true → o = .badRecord) ∧
          (e.bad = false → o = .deptSet ∧ (b'.deptEntry e.dept).isSome = true)) ∧
        b'.records = b.records ∧ (k = 0 → b' = b) ∧
        (0 < k → b'.state = .filling ∧
          b'.openWord = (if b.state = .erased then .good (intendedGen gen) else b.openWord) ∧
          b'.labelUse = (if b.state = .erased then some [] else b.labelUse) ∧
          b'.lastCode = if b.state = .erased then none else b.lastCode)) ∧
  (∀ gen : Nat, intendedGen gen = if gen = 4294967295 then 0 else gen + 1) ∧
  (∀ e : DeptItem, e.bad = false ↔
      e.dept ≤ 99 ∧ e.entry.overrideLevel ≤ 3 ∧ (∀ l, e.entry.openPrice = some l → l ≤ 3) ∧ e.entry.taxClass ≤ 3) ∧
  ((∀ (gen : Nat) (b : Bank) (rs : List AppendItem), b.state = .erased ∨ b.state = .filling →
      ∃ (k : Nat) (b' : Bank) (o : OrderOutcome), b.runAppend gen rs 0 = (b', k, o) ∧ k ≤ rs.length ∧
        b'.records = b.records ++ (rs.take k).map AppendItem.toItemRecord ∧ b'.depts = b.depts ∧
        (0 < k → b'.state = .filling ∧ b'.lastCode = ((rs[k - 1]?).map fun r => r.code) ∧
          b'.openWord = if b.state = .erased then .good (intendedGen gen) else b.openWord) ∧
        (k = 0 → b' = b) ∧ (b.state = .erased → k = 0) ∧
        (∀ u, b.labelUse = some u →
          ∃ u', b'.labelUse = some u' ∧ ∀ l, l ∈ u' ↔ l ∈ u ∨ ∃ r ∈ rs.take k, r.labelIndex = some l) ∧
        (k = rs.length → o = .done) ∧
        (∀ r : AppendItem, rs[k]? = some r → b'.refuses r = some o) ∧
        ∀ (j : Nat) (r : AppendItem), j < k → rs[j]? = some r →
          (b.runAppend gen (rs.take j) 0).1.refuses r = none) ∧
    (∀ (b : Bank) (r : AppendItem),
      (r.bad = true → b.refuses r = some .badRecord) ∧
      (r.bad = false → 8192 ≤ b.records.length → b.refuses r = some .full) ∧
      (r.bad = false → b.records.length < 8192 → ∀ c, b.lastCode = some c → r.code ≤ c →
        b.refuses r = some .outOfOrder) ∧
      (r.bad = false → b.records.length < 8192 → (∀ c, b.lastCode = some c → c < r.code) → b.deptEntry r.dept = none →
        b.refuses r = some .noDept) ∧
      (r.bad = false → b.records.length < 8192 → (∀ c, b.lastCode = some c → c < r.code) → b.deptEntry r.dept ≠ none →
        (∀ l u, r.labelIndex = some l → b.labelUse = some u → l ∈ u → b.refuses r = some .labelTaken) ∧
        ((∀ l u, r.labelIndex = some l → b.labelUse = some u → l ∉ u) → b.refuses r = none))) ∧
    ∀ r : AppendItem,
      r.bad = false ↔
        r.basisOk = true ∧ r.promotionOk = true ∧ r.classOk = true ∧ 1 ≤ r.code ∧ r.code ≤ 9999999999999 ∧
        r.dept ≤ 99 ∧ r.unitPrice ≤ 9999999 ∧ r.taxClass ≤ 3 ∧ r.overrideLevel ≤ 3 ∧
        (∀ n m, r.promotion = some (.multiBuy n m) →
          r.basis = .each ∧ 2 ≤ n ∧ n ≤ 9 ∧ 1 ≤ m ∧ m ≤ 9999999) ∧
        (∀ p, r.promotion = some (.percentOff p) → 1 ≤ p ∧ p ≤ 90) ∧
        (∀ g, r.packSize = some g → r.basis = .each ∧ 1 ≤ g ∧ g ≤ 99999) ∧
        (∀ i, r.labelIndex = some i → i ≤ 4095) ∧
        ∀ d, r.description = some d → d.length ≤ 20 ∧ ∀ c ∈ d, 32 ≤ c ∧ c ≤ 126)

/-- SEAL on a FILLING bank: its own checks in their order, and, when all pass, the SEAL word with the count, the
next generation and the effective time; the result carries the new generation. On a bank in another state the result
names it: BUSY while ERASING, IN-FORCE for an ACTIVE bank, TORN for a TORN one, STATE for an ERASED, SEALED or RETIRED
one. Model's readings: log 30. -/
def Obligations.SealWritesTheNextGeneration : Prop :=
  ∀ (tag : Nat) (b : BankNo) (count day minute : Nat) (s : State), s.is.recovered = true →
    (∀ o : OrderOutcome,
      (s.is.bank b).state = .erasing ∧ o = .busy ∨ (s.is.bank b).state = .active ∧ o = .inForce ∨
        (s.is.bank b).state = .torn ∧ o = .torn ∨
        ((s.is.bank b).state = .erased ∨ (s.is.bank b).state = .sealed ∨ (s.is.bank b).state = .retired) ∧
          o = .state →
      exec (.sealBank tag b count day minute) s =
        .next (s.report (.orderResult s.stn tag (some
          { bank := b, outcome := o, written := 0, count := (s.is.bank b).count })) tag).switchIfDue) ∧
    ((s.is.bank b).state = .filling →
      (∀ o : OrderOutcome,
        (s.is.bank (otherBank b)).state = .sealed ∧ o = .state ∨
          (s.is.bank (otherBank b)).state ≠ .sealed ∧ (1439 < minute ∧ o = .badRecord ∨
            minute ≤ 1439 ∧ (count ≠ (s.is.bank b).records.length ∧ o = .countMismatch ∨
              count = (s.is.bank b).records.length ∧ (s.is.gen = 4294967295 ∧ o = .exhausted ∨
                s.is.gen ≠ 4294967295 ∧ (s.is.bank b).openWord ≠ .good (s.is.gen + 1) ∧ o = .superseded))) →
        exec (.sealBank tag b count day minute) s =
          .next (s.report (.orderResult s.stn tag (some
            { bank := b, outcome := o, written := 0, count := (s.is.bank b).records.length })) tag).switchIfDue) ∧
      ((s.is.bank (otherBank b)).state ≠ .sealed → minute ≤ 1439 → count = (s.is.bank b).records.length →
        s.is.gen ≠ 4294967295 → (s.is.bank b).openWord = .good (s.is.gen + 1) →
        exec (.sealBank tag b count day minute) s =
          .next ({ s with is := s.is.setBank b { s.is.bank b with
            sealWord := .good { count := count, gen := s.is.gen + 1, day := day, minute := minute }
            labelUse := none, lastCode := none } }.report (.orderResult s.stn tag (some
              { bank := b, outcome := .done, written := 0, count := count, sealGen := some (s.is.gen + 1) }))
              tag).switchIfDue))

/-- SWITCHOVER: once the item store has recovered, no review runs and the clock has reached a SEALED bank's effective
time (second 60 x minute of its day, or any later time), that bank is ACTIVE and selected at its seal generation, an
ACTIVE one becomes RETIRED, the item flags are cleared and those lost are counted, every bound label is in REVIEW, and
the PRICE NOTICE is handed over, all in one event. Otherwise, with the clock set and still before the effective time of
every SEALED bank among it, nothing changes. Model's readings: log 29 (of two SEALED banks that are due, bank 0). -/
def Obligations.SwitchoverIsOneEvent : Prop :=
  (∀ (s : State) (b : BankNo) (w : SealWord) (c : Time), s.is.recovered = true → s.lrc.review = none →
    (s.is.bank b).state = .sealed → (s.is.bank b).sealWord = .good w →
    s.sc.clockState ≠ .unset → s.sc.clock = some c →
    w.day < c.day ∨ w.day = c.day ∧ 60 * w.minute ≤ c.sec →
    (b = 1 → (s.is.bank 0).state = .sealed → ∀ x, (s.is.bank 0).sealWord = .good x →
      c.day < x.day ∨ c.day = x.day ∧ c.sec < 60 * x.minute) →
    Tbl.wf {} s.lrc.labels = true →
    ∃ t, exec .switchover s = .next t ∧
      t.is.selected = some b ∧ t.is.gen = w.gen ∧
      t.is.bank b = { s.is.bank b with activeWord := .good () } ∧
      t.is.bank (otherBank b) =
        (if (s.is.bank (otherBank b)).state = .active then { s.is.bank (otherBank b) with retiredWord := .good () }
         else s.is.bank (otherBank b)) ∧
      t.is.accessed = [] ∧ t.is.activity = [] ∧
      t.is.lostSnapshots = bumpBy s.is.lostSnapshots (Flags.merge s.is.activity s.is.accessed).length ∧
      t.is.recovered = true ∧
      (∀ i : Nat, t.lrc.label i =
        { s.lrc.label i with
          state := if (s.lrc.label i).state = .unbound then .unbound else .review
          stayFast := if s.lrc.sweep then 0 else (s.lrc.label i).stayFast }) ∧
      t.lrc = { s.lrc with
        labels := t.lrc.labels, sweep := false
        passCount := if s.lrc.sweep then 0 else s.lrc.passCount
        passOn := if s.lrc.sweep then false else s.lrc.passOn
        review := some { oldBank := s.is.selected, newBank := b, ms := 100, rebuild := false } } ∧
      t.tp = (s.tp.handOver { dest := .broadcast, tag := 0, payload := .priceNotice w.gen }).2 ∧
      t.lu = s.lu ∧ t.bu = s.bu ∧ t.ju = s.ju ∧ t.fu = s.fu ∧ t.gu = s.gu ∧ t.nlc = s.nlc ∧ t.sc = s.sc ∧
      t.stn = s.stn ∧ t.now = s.now ∧ t.out = s.out ∧ t.deferred = s.deferred ∧ t.pending = s.pending) ∧
  ∀ s : State,
    s.is.recovered = false ∨ s.lrc.review ≠ none ∨ s.sc.clockState = .unset ∨ s.sc.clock = none ∨
      (∀ b : BankNo, (s.is.bank b).state ≠ .sealed) ∨
      (∃ c, s.sc.clock = some c ∧ ∀ (b : BankNo) (w : SealWord), (s.is.bank b).state = .sealed →
        (s.is.bank b).sealWord = .good w → c.day < w.day ∨ c.day = w.day ∧ c.sec < 60 * w.minute) →
    exec .switchover s = .next s

/-- ITEM_STORE_RECOVERY: each bank's content is read; of two ACTIVE banks the one of the lower seal generation, or
bank 1, is written RETIRED; the ACTIVE bank is selected and gives the generation, or none and 0; the item flags are
clear; the label table is built from that bank and the radio of a SET station starts; then a switchover that is due is
performed. A second recovery does nothing. A bank's content: a last record whose words are all there is the bank's
last record, and one whose words are not stays incomplete; a FILLING bank has its label indexes and its last code
again and any other none; words and entries are as they were. The label table: the one label of each record is
UNCHECKED at the record's position with its wake class, and every other label is UNBOUND. A bank's state, at every
moment: ERASING while its erase runs; else by the header words that are present, a word whose check fails being
absent: none, ERASED with no content at all and TORN with any; OPEN alone, FILLING, or TORN with an incomplete last
record; OPEN and SEAL, SEALED; with ACTIVE too, ACTIVE; with RETIRED too, RETIRED; and TORN where they form no
unbroken run (R1, R2, R22). Model's readings: logs 29 and 35. -/
def Obligations.ItemStoreRecoverySelectsTheActiveBank : Prop :=
  (∀ s : State,
    (s.is.recovered = true → exec .itemStoreRecovery s = .next s) ∧
    (s.is.recovered = false →
      ∃ u : State, exec .itemStoreRecovery s = .next u.switchIfDue ∧
        (¬((s.is.bank 0).recover.state = .active ∧ (s.is.bank 1).recover.state = .active) →
          u.is.bank 0 = (s.is.bank 0).recover ∧ u.is.bank 1 = (s.is.bank 1).recover) ∧
        ((s.is.bank 0).recover.state = .active → (s.is.bank 1).recover.state = .active →
          ((s.is.bank 0).recover.sealGen < (s.is.bank 1).recover.sealGen →
            u.is.bank 0 = { (s.is.bank 0).recover with retiredWord := .good () } ∧
              u.is.bank 1 = (s.is.bank 1).recover) ∧
          ((s.is.bank 1).recover.sealGen ≤ (s.is.bank 0).recover.sealGen →
            u.is.bank 0 = (s.is.bank 0).recover ∧
              u.is.bank 1 = { (s.is.bank 1).recover with retiredWord := .good () })) ∧
        (∀ b : BankNo, (u.is.bank b).state = .active → (u.is.bank (otherBank b)).state ≠ .active →
          u.is.selected = some b ∧ u.is.gen = (u.is.bank b).sealGen ∧
            u.lrc.labels = bindRecords [] (u.is.bank b).records) ∧
        ((∀ b : BankNo, (u.is.bank b).state ≠ .active) →
          u.is.selected = none ∧ u.is.gen = 0 ∧ u.lrc.labels = []) ∧
        u.is.accessed = [] ∧ u.is.activity = [] ∧ u.is.recovered = true ∧
        u.lrc.review = none ∧ u.lrc.sweep = false ∧ u.lrc.cycle = 0 ∧
        (s.sc.page.isSome = true → u.lrc.running = true) ∧ (s.sc.page = none → u.lrc.running = s.lrc.running) ∧
        u.tp = s.tp ∧ u.ju = s.ju ∧ u.bu = s.bu ∧ u.sc = s.sc ∧ u.stn = s.stn ∧ u.now = s.now ∧ u.out = s.out)) ∧
  (∀ x y : Bank, y = x.recover →
    (∀ r, recordOfWords x.tail = some r → y.records = x.records ++ [r] ∧ y.tail = []) ∧
    (recordOfWords x.tail = none → y.records = x.records ∧ y.tail = x.tail) ∧
    (y.state = .filling → y.lastCode = y.records.getLast?.map (fun r => r.code) ∧
      ∃ u, y.labelUse = some u ∧ ∀ l, l ∈ u ↔ ∃ r ∈ y.records, r.labelIndex = some l) ∧
    (y.state ≠ .filling → y.labelUse = none ∧ y.lastCode = none) ∧
    y = { x with records := y.records, tail := y.tail, labelUse := y.labelUse, lastCode := y.lastCode }) ∧
  (∀ (b : Bank) (o l a r bare : Prop), (o ↔ ∃ g, b.openWord = .good g) → (l ↔ ∃ w, b.sealWord = .good w) →
    (a ↔ b.activeWord = .good ()) → (r ↔ b.retiredWord = .good ()) →
    (bare ↔ b.openWord = .erased ∧ b.sealWord = .erased ∧ b.activeWord = .erased ∧ b.retiredWord = .erased ∧
      b.depts = [] ∧ b.records = [] ∧ b.tail = [] ∧ b.residue = false) →
    (b.erasing ≠ none → b.state = .erasing) ∧
    (b.erasing = none →
      (¬o → ¬l → ¬a → ¬r → (bare → b.state = .erased) ∧ (¬bare → b.state = .torn)) ∧
      (o → ¬l → ¬a → ¬r → (b.tail = [] → b.state = .filling) ∧ (b.tail ≠ [] → b.state = .torn)) ∧
      (o → l → ¬a → ¬r → b.state = .sealed) ∧ (o → l → a → ¬r → b.state = .active) ∧
      (o → l → a → r → b.state = .retired) ∧
      (l ∧ ¬o ∨ a ∧ ¬l ∨ r ∧ ¬a → b.state = .torn))) ∧
  ∀ (rs : List ItemRecord) (i : Nat),
    (∀ (p : Nat) (r : ItemRecord), rs[p]? = some r → r.labelIndex = some i →
      (∀ (q : Nat) (x : ItemRecord), rs[q]? = some x → x.labelIndex = some i → q = p) →
      Tbl.get {} (bindRecords [] rs) i =
        ({ state := .unchecked, position := some p, wakeClass := r.labelClass.getD .slow } : LabelEntry)) ∧
    ((∀ r ∈ rs, r.labelIndex ≠ some i) → Tbl.get {} (bindRecords [] rs) i = ({} : LabelEntry))

/-- The words in which a record is written spell it: read back they give the record, and an interrupted append, whose
last words are missing, gives none. -/
def Obligations.RecordWordsReadBack : Prop :=
  ∀ r : ItemRecord, r.bad = false →
    recordOfWords r.words = some r ∧ r.words.length = r.wordCount ∧ (∀ w ∈ r.words, w.length = 24) ∧
      ∀ k, k < r.words.length → recordOfWords (r.words.take k) = none


/-! ## Chapter 3: finding a price -/

/-- PRICE_QUERY: the item store searches for the item code and purpose; a record found for a SALE sets ACCESSED, and
the answer with the generation, the record without its label fields and the folded level is handed over; no record
sends nothing; out of ACTIVE the query is not delivered. While the item store recovers, the query waits: the model's
choice of how (log 5). A local
search: item code 0 and a code that no record of the selected bank carries find nothing; otherwise the record of
that code is found, with its position, the price generation, its department's entry, and the more privileged of the
two required levels. Model's readings: logs 5 and 20. -/
def Obligations.PriceQueryIsAnsweredFromTheBankInForce : Prop :=
  (∀ (src : Station) (tag code : Nat) (p : Purpose) (s : State), src ≠ s.stn →
      (s.tp.trunk ≠ .active → exec (.priceQuery src tag code p) s = .next s.heard) ∧
      (s.tp.trunk = .active → s.is.recovered = false →
        exec (.priceQuery src tag code p) s =
          .next { s.heard with deferred := s.deferred ++ [.query src tag code p] }) ∧
      (s.tp.trunk = .active → s.is.recovered = true → s.is.search code = none →
        exec (.priceQuery src tag code p) s = .next s.heard) ∧
      (∀ f : Found, s.tp.trunk = .active → s.is.recovered = true → s.is.search code = some f →
        exec (.priceQuery src tag code p) s =
          .next { s with
            is := { s.is with accessed := if p = .sale then Flags.set s.is.accessed f.position else s.is.accessed }
            tp := (s.heard.tp.handOver (frameTo src tag
              (.priceAnswer f.gen { f.item with labelIndex := none, labelClass := none } f.level))).2 })) ∧
  (∀ (i : ItemStore) (code : Nat),
      (code = 0 ∨ i.selected = none → i.search code = none) ∧
      ∀ b : BankNo, i.selected = some b → code ≠ 0 →
        ((∀ r ∈ (i.bank b).records, r.code ≠ code) → i.search code = none) ∧
        ∀ (p : Nat) (r : ItemRecord), (i.bank b).records[p]? = some r → r.code = code →
          (∀ (q : Nat) (x : ItemRecord), (i.bank b).records[q]? = some x → x.code = code → q = p) →
          ∃ f, i.search code = some f ∧ f.item = r ∧ f.position = p ∧ f.gen = i.gen ∧
            f.dept = (i.bank b).deptEntry r.dept ∧
            (∀ d, (i.bank b).deptEntry r.dept = some d → f.level = min d.overrideLevel r.overrideLevel) ∧
            ((i.bank b).deptEntry r.dept = none → f.level = r.overrideLevel))

/-- PRICE_ANSWER matches the waiting entry of its tag and item code; one that matches none has no effect. A usable one
frees the entry, fills the cache unless its station is ABSENT, and is the FOUND result of the till's request. A stale
one in TRY 1 sends the query again as TRY 2, and in TRY 2 has no effect. Installing a usable answer takes the way of
the same code, else an invalid way, way 0 first, else the way the older-way mark names; the mark then names the other
way. A hit makes its way the newer one. Model's readings: log 20 (the frame ends a sit-out). -/
def Obligations.PriceAnswerIsUsableOrStale : Prop :=
  (∀ (src : Station) (tag gen : Nat) (item : ItemRecord) (level : Nat) (s : State), src ≠ s.stn →
      s.tp.trunk = .active →
      ((∀ k : TillNo, s.lu.queries[k].state = .free ∨ s.lu.queries[k].tag ≠ tag ∨ s.lu.queries[k].code ≠ item.code) →
        exec (.priceAnswer src tag gen item level) s = .next s.heard) ∧
      ∀ k : TillNo, s.lu.queries[k].state ≠ .free → s.lu.queries[k].tag = tag → s.lu.queries[k].code = item.code →
        (∀ j : TillNo, j < k →
          s.lu.queries[j].state = .free ∨ s.lu.queries[j].tag ≠ tag ∨ s.lu.queries[j].code ≠ item.code) →
        (s.tp.peers[src].state = .absent ∨ s.tp.peers[src].gen ≤ gen →
          exec (.priceAnswer src tag gen item level) s =
            .next (State.lookupDone k (.found
              { source := .remote, owner := src, gen := gen, level := level
                item := { item with labelIndex := none, labelClass := none } })
              { s.heard with lu := {
                queries := updAt s.lu.queries k fun e => { seq := e.seq }
                cache :=
                  if s.tp.peers[src].state = .absent then s.lu.cache
                  else updAt s.lu.cache (setOf item.code) fun c => c.install
                    { code := item.code, owner := src, gen := gen, level := level
                      item := { item with labelIndex := none, labelClass := none } } } })) ∧
        (s.tp.peers[src].state ≠ .absent → gen < s.tp.peers[src].gen → s.lu.queries[k].state = .try1 →
          s.tp.qB.length < 16 →
          exec (.priceAnswer src tag gen item level) s =
            .next { s.heard with
              tp := { s.heard.tp with
                qB := s.tp.qB ++ [queryFrame s.lu.queries[k].tag s.lu.queries[k].code s.lu.queries[k].purpose] }
              lu := { s.lu with queries := updAt s.lu.queries k fun e => { e with state := .try2, ms := 20 } } }) ∧
        (s.tp.peers[src].state ≠ .absent → gen < s.tp.peers[src].gen → s.lu.queries[k].state = .try1 →
          16 ≤ s.tp.qB.length →
          exec (.priceAnswer src tag gen item level) s =
            .next (State.lookupDone k .busy { s.heard with
              lu := { s.lu with queries := updAt s.lu.queries k fun e => { seq := e.seq } } })) ∧
        (s.tp.peers[src].state ≠ .absent → gen < s.tp.peers[src].gen → s.lu.queries[k].state = .try2 →
          exec (.priceAnswer src tag gen item level) s = .next s.heard)) ∧
  (∀ (c : CacheSet) (e : CacheEntry),
      ((∃ x, c.way0 = some x ∧ x.code = e.code) → c.install e = { c with way0 := some e, older1 := true }) ∧
      ((∀ x, c.way0 = some x → x.code ≠ e.code) → (∃ y, c.way1 = some y ∧ y.code = e.code) →
        c.install e = { c with way1 := some e, older1 := false }) ∧
      ((∀ x, c.way0 = some x → x.code ≠ e.code) → (∀ y, c.way1 = some y → y.code ≠ e.code) →
        (c.way0 = none → c.install e = { c with way0 := some e, older1 := true }) ∧
        (c.way0 ≠ none → c.way1 = none → c.install e = { c with way1 := some e, older1 := false }) ∧
        (c.way0 ≠ none → c.way1 ≠ none → c.older1 = false → c.install e = { c with way0 := some e, older1 := true }) ∧
        (c.way0 ≠ none → c.way1 ≠ none → c.older1 = true → c.install e = { c with way1 := some e, older1 := false })) ∧
      (∀ x, c.way0 = some x → c.look x.code = (some x, { c with older1 := true })) ∧
      (∀ y, c.way1 = some y → (∀ x, c.way0 = some x → x.code ≠ y.code) →
        c.look y.code = (some y, { c with older1 := false })))

/-- QUERY_TIMER_EXPIRY: a TRY 1 entry hands its query again and becomes TRY 2 with a new 20 ms, or is freed with
BUSY or NO-TRUNK; a TRY 2 entry is freed with UNKNOWN-ITEM; a FREE entry is left as it is. The result of a query
completes the request that waits on it: a SCAN's FOUND takes the line or refuses BAD-QTY, an ENQUIRE's answers PRICE,
and any other result is refused by its own name; the line waits no longer. Model's readings: log 2. -/
def Obligations.QueriesRetryOnceAndComplete : Prop :=
  (∀ (k : TillNo) (s : State),
      (s.lu.queries[k].state = .free → exec (.queryTimerExpiry k) s = .next s) ∧
      (s.lu.queries[k].state = .try1 → s.tp.trunk = .active → s.tp.qB.length < 16 →
        exec (.queryTimerExpiry k) s =
          .next { s with
            tp := { s.tp with
              qB := s.tp.qB ++ [queryFrame s.lu.queries[k].tag s.lu.queries[k].code s.lu.queries[k].purpose] }
            lu := { s.lu with queries := updAt s.lu.queries k fun e => { e with state := .try2, ms := 20 } } }) ∧
      (s.lu.queries[k].state = .try1 → s.tp.trunk = .active → 16 ≤ s.tp.qB.length →
        exec (.queryTimerExpiry k) s =
          .next (State.lookupDone k .busy { s with
            lu := { s.lu with queries := updAt s.lu.queries k fun e => { seq := e.seq } } })) ∧
      (s.lu.queries[k].state = .try1 → s.tp.trunk ≠ .active →
        exec (.queryTimerExpiry k) s =
          .next (State.lookupDone k .noTrunk { s with
            lu := { s.lu with queries := updAt s.lu.queries k fun e => { seq := e.seq } } })) ∧
      (s.lu.queries[k].state = .try2 →
        exec (.queryTimerExpiry k) s =
          .next (State.lookupDone k .unknown { s with
            lu := { s.lu with queries := updAt s.lu.queries k fun e => { seq := e.seq } } }))) ∧
  (∀ (k : TillNo) (s : State) (o : Outstanding) (code : Nat), s.bu.tills[k].outstanding = some o →
      (∀ (m : Measure) (u : State), s.bu.tills[k].scan = some { code := code, measure := some m } →
        u = { s with bu := { s.bu with
          tills := updAt s.bu.tills k fun t => { t with outstanding := none, scan := none } } } →
        (∀ p : PriceFind,
          s.lookupDone k (.found p) =
            if m.fits p.item.basis then u.takeLine k o.tag (scanLine (s.bu.tills[k].basket.lines.length + 1) p m)
            else { u with out := s.out ++ [.answer k o.tag (.refused .badQty)] }) ∧
        s.lookupDone k .unknown = { u with out := s.out ++ [.answer k o.tag (.refused .unknownItem)] } ∧
        s.lookupDone k .busy = { u with out := s.out ++ [.answer k o.tag (.refused .busy)] } ∧
        s.lookupDone k .noTrunk = { u with out := s.out ++ [.answer k o.tag (.refused .noTrunk)] }) ∧
      (∀ u : State, s.bu.tills[k].scan = some { code := code, measure := none } →
        u = { s with bu := { s.bu with
          tills := updAt s.bu.tills k fun t => { t with outstanding := none, scan := none } } } →
        (∀ p : PriceFind,
          s.lookupDone k (.found p) =
            { u with out := s.out ++ [.answer k o.tag (.price
              { code := p.item.code, source := p.source, owner := p.owner, ownerGen := p.gen
                unitPrice := p.item.unitPrice, basis := p.item.basis, taxClass := p.item.taxClass
                promotion := p.item.promotion, packSize := p.item.packSize
                description := p.item.description })] }) ∧
        s.lookupDone k .unknown = { u with out := s.out ++ [.answer k o.tag (.refused .unknownItem)] } ∧
        s.lookupDone k .busy = { u with out := s.out ++ [.answer k o.tag (.refused .busy)] } ∧
        s.lookupDone k .noTrunk = { u with out := s.out ++ [.answer k o.tag (.refused .noTrunk)] }))


/-! ## Chapters 4 and 5: tills, baskets and their arithmetic -/

/-- Every request of a till meets the checks in one order: NOT-READY while the station is UNSET, no answer on a line
that setup does not enable, PENDING while a request is outstanding, NO-SESSION for a request but SIGN ON without a
session, and STATE for a request not taken in the basket's state, or a SIGN ON in a session. A refused request changes
nothing else. The basket states in which each request is taken are those of Table 4-2; SIGN ON is judged by the session
instead (R66). The field checks compare each field of a request with its range, in the order the fields stand in the
request, and refuse at the first field out of range. -/
def Obligations.RequestsAreCheckedInOrder : Prop :=
  (∀ (c : Instr) (k : TillNo) (t : Nat) (kind : ReqKind) (s : State), requestOf c = some (k, t, kind) →
      (s.sc.page = none → exec c s = .next { s with out := s.out ++ [.answer k t (.refused .notReady)] }) ∧
      ∀ r : SetupRecord, s.sc.page = some r →
        (r.enabled[k] = false → exec c s = .next s) ∧
        (r.enabled[k] = true →
          (s.bu.tills[k].outstanding ≠ none →
            exec c s = .next { s with out := s.out ++ [.answer k t (.refused .pending)] }) ∧
          (s.bu.tills[k].outstanding = none → kind ≠ .signOn → s.bu.tills[k].session = none →
            exec c s = .next { s with out := s.out ++ [.answer k t (.refused .noSession)] }) ∧
          (s.bu.tills[k].outstanding = none → kind = .signOn → s.bu.tills[k].session ≠ none →
            exec c s = .next { s with out := s.out ++ [.answer k t (.refused .state)] }) ∧
          (s.bu.tills[k].outstanding = none → kind ≠ .signOn → s.bu.tills[k].session ≠ none →
            kind.takenIn s.bu.tills[k].basket.state = false →
            exec c s = .next { s with out := s.out ++ [.answer k t (.refused .state)] }))) ∧
  (∀ (s : State) (k : TillNo) (kind : ReqKind),
      s.Accepts k kind ↔
        (∃ r : SetupRecord, s.sc.page = some r ∧ r.enabled[k] = true) ∧ s.bu.tills[k].outstanding = none ∧
          (kind = .signOn → s.bu.tills[k].session = none) ∧
          (kind ≠ .signOn → s.bu.tills[k].session ≠ none ∧ kind.takenIn s.bu.tills[k].basket.state = true)) ∧
  (∀ b : BasketState,
      ReqKind.signOn.takenIn b = true ∧
      (ReqKind.signOff.takenIn b = true ↔ b = .empty) ∧
      (ReqKind.scan.takenIn b = true ↔ b = .empty ∨ b = .opened ∨ b = .subtotal) ∧
      (ReqKind.key.takenIn b = true ↔ b = .empty ∨ b = .opened ∨ b = .subtotal) ∧
      (ReqKind.voidLast.takenIn b = true ↔ b = .opened ∨ b = .subtotal) ∧
      (ReqKind.voidLine.takenIn b = true ↔ b = .opened ∨ b = .subtotal) ∧
      (ReqKind.override.takenIn b = true ↔ b = .opened ∨ b = .subtotal) ∧
      (ReqKind.subtotal.takenIn b = true ↔ b = .opened ∨ b = .subtotal ∨ b = .tendering) ∧
      (ReqKind.tender.takenIn b = true ↔ b = .opened ∨ b = .subtotal ∨ b = .tendering) ∧
      (ReqKind.refund.takenIn b = true ↔ b = .opened ∨ b = .subtotal) ∧
      (ReqKind.park.takenIn b = true ↔ b = .opened ∨ b = .subtotal) ∧
      (ReqKind.recall.takenIn b = true ↔ b = .empty) ∧
      (ReqKind.cancel.takenIn b = true ↔ b = .opened ∨ b = .subtotal) ∧
      (ReqKind.enquire.takenIn b = true ↔ b = .empty ∨ b = .opened ∨ b = .subtotal ∨ b = .tendering)) ∧
  (∀ (k : TillNo) (t : Nat) (s : State) (refused : Refused → State),
      (∀ r, refused r = { s with out := s.out ++ [.answer k t (.refused r)] }) →
      (∀ cashier level, s.Accepts k .signOn →
        (cashier < 1 ∨ 9999 < cashier → exec (.signOn k t cashier level) s = .next (refused .badQty)) ∧
        (1 ≤ cashier → cashier ≤ 9999 → 3 < level → exec (.signOn k t cashier level) s = .next (refused .level))) ∧
      (∀ code m level, s.Accepts k .scan →
        (9999999999999 < code → exec (.scan k t code m level) s = .next (refused .unknownItem)) ∧
        (code ≤ 9999999999999 → (∀ q, m = .quantity q → q < -99 ∨ q = 0 ∨ 99 < q) →
          (∀ g, m = .weight g → g < -30000 ∨ g = 0 ∨ 30000 < g) →
          exec (.scan k t code m level) s = .next (refused .badQty)) ∧
        (code ≤ 9999999999999 → (∀ q, m = .quantity q → -99 ≤ q ∧ q ≠ 0 ∧ q ≤ 99) →
          (∀ g, m = .weight g → -30000 ≤ g ∧ g ≠ 0 ∧ g ≤ 30000) → (∃ l, level = some l ∧ 3 < l) →
          exec (.scan k t code m level) s = .next (refused .level))) ∧
      (∀ d price (q : Int) level, s.Accepts k .key →
        (99 < d → exec (.key k t d price q level) s = .next (refused .unknownItem)) ∧
        (d ≤ 99 → 9999999 < price → exec (.key k t d price q level) s = .next (refused .badPrice)) ∧
        (d ≤ 99 → price ≤ 9999999 → q < -99 ∨ q = 0 ∨ 99 < q →
          exec (.key k t d price q level) s = .next (refused .badQty)) ∧
        (d ≤ 99 → price ≤ 9999999 → -99 ≤ q → q ≠ 0 → q ≤ 99 → (∃ l, level = some l ∧ 3 < l) →
          exec (.key k t d price q level) s = .next (refused .level))) ∧
      (∀ n, s.Accepts k .voidLine → n < 1 ∨ s.bu.tills[k].basket.lines.length < n →
        exec (.voidLine k t n) s = .next (refused .state)) ∧
      (∀ n price level, s.Accepts k .override →
        (n < 1 ∨ s.bu.tills[k].basket.lines.length < n →
          exec (.override k t n price level) s = .next (refused .state)) ∧
        (1 ≤ n → n ≤ s.bu.tills[k].basket.lines.length → 9999999 < price →
          exec (.override k t n price level) s = .next (refused .badPrice)) ∧
        (1 ≤ n → n ≤ s.bu.tills[k].basket.lines.length → price ≤ 9999999 → 3 < level →
          exec (.override k t n price level) s = .next (refused .level))) ∧
      (∀ method amount, s.Accepts k .tender → amount < 1 ∨ 999999999 < amount →
        exec (.tender k t method amount) s = .next (refused .badPrice)) ∧
      (∀ l, s.Accepts k .refund → 3 < l → exec (.refund k t (some l)) s = .next (refused .level)) ∧
      (∀ l, s.Accepts k .cancel → 3 < l → exec (.cancel k t l) s = .next (refused .level)) ∧
      (∀ ticket, s.Accepts k .recall → 15 < ticket / 100 ∨ 15 < ticket % 100 →
        exec (.recallTicket k t ticket) s = .next (refused .noTicket)) ∧
      (∀ code, s.Accepts k .enquire → 9999999999999 < code →
        exec (.enquire k t code) s = .next (refused .unknownItem)))

/-- SIGN_ON opens a session whose level is the larger of the claimed level and the line's ceiling, SIGN_OFF ends it,
each answered TOTALS; a discarded till frame changes nothing. The remaining amount and the cash due of the TOTALS, whose
basket is EMPTY here, are the model's choice (log 52). -/
def Obligations.SessionsOpenAndEnd : Prop :=
  ∀ (k : TillNo) (t : Nat) (s : State),
    (∀ (cashier level : Nat) (r : SetupRecord) (x : TillRec), s.Accepts k .signOn → s.sc.page = some r →
      1 ≤ cashier → cashier ≤ 9999 → level ≤ 3 →
      x = { s.bu.tills[k] with session := some { cashier := cashier, level := max level r.ceiling[k] } } →
      exec (.signOn k t cashier level) s =
        .next { s with bu := { s.bu with tills := s.bu.tills.set k.1 x }
                       out := s.out ++ [.answer k t (.totals (x.totals r.cashStep))] }) ∧
    (∀ (r : SetupRecord) (x : TillRec), s.Accepts k .signOff → s.sc.page = some r →
      x = { s.bu.tills[k] with session := none } →
      exec (.signOff k t) s =
        .next { s with bu := { s.bu with tills := s.bu.tills.set k.1 x }
                       out := s.out ++ [.answer k t (.totals (x.totals r.cashStep))] }) ∧
    (∀ f : RawTillFrame, exec (.tillFrameDiscarded k f) s = .next s) ∧
    ∀ (x : TillRec) (step : Nat),
      x.totals step =
        { session := x.session, state := x.basket.state, lineCount := x.basket.lines.length
          amounts := x.basket.amounts, tax := x.basket.tax, remaining := x.basket.remaining
          cashDue := x.basket.cashDue step, tenders := x.basket.tenders.length, limit := x.basket.limit }

/-- SCAN, past its checks: a full basket is refused BASKET-FULL, a return above level 1 LEVEL, the claimed level or else
the session's deciding; item code 0 is UNKNOWN-ITEM, the item store not asked; a record of the bank in force or of the
cache gives the line's price, or, where the measure is not one of its basis (a quantity of an EACH item, a weight of a
PER KG one), the request is refused BAD-QTY (R74), the flag or mark that the lookup set staying; and otherwise the other
stations are asked by a broadcast PRICE QUERY and the request waits. A new line reserves one journal record, or two for
the first line of a basket, and is answered LINE; refused by the journal, the request is refused JOURNAL-FULL and
nothing changes. The line has the number, item code, source, owner station and generation, measure, price, basis, tax
class, required level and promotion of the result, RETURN for a negative measure and no other flag (R72). That a SCAN
waits, still outstanding, for the item store's recovery before its lookup and for the journal's before its reservation
is the model's choice of how (log 5). -/
def Obligations.ScanFindsItsPriceAndAddsALine : Prop :=
  (∀ (n : Nat) (p : PriceFind) (m : Measure),
      scanLine n p m =
        { number := n, subject := .item p.item.code, source := p.source, owner := p.owner, ownerGen := p.gen
          measure := m, unitPrice := p.item.unitPrice, priceBefore := none, basis := p.item.basis
          taxClass := p.item.taxClass, requiredLevel := p.level, extended := 0, discount := 0, net := 0
          voided := false, overridden := false, isReturn := decide (m.value < 0), promoSkipped := false, limit := false
          promotion := p.item.promotion, overrides := [] }) ∧
  (∀ (k : TillNo) (t code : Nat) (m : Measure) (claimed : Option Nat) (s : State), s.Accepts k .scan →
      m.inRange = true → code ≤ 9999999999999 → (∀ l, claimed = some l → l ≤ 3) →
      (64 ≤ s.bu.tills[k].basket.lines.length →
        exec (.scan k t code m claimed) s =
          .next { s with out := s.out ++ [.answer k t (.refused .basketFull)] }) ∧
      (s.bu.tills[k].basket.lines.length < 64 → m.value < 0 → 1 < s.level k claimed →
        exec (.scan k t code m claimed) s = .next { s with out := s.out ++ [.answer k t (.refused .level)] }) ∧
      (s.bu.tills[k].basket.lines.length < 64 → 0 < m.value ∨ s.level k claimed ≤ 1 → code = 0 →
        exec (.scan k t code m claimed) s =
          .next { s with out := s.out ++ [.answer k t (.refused .unknownItem)] }) ∧
      (s.bu.tills[k].basket.lines.length < 64 → 0 < m.value ∨ s.level k claimed ≤ 1 → 1 ≤ code →
        s.is.recovered = false →
        exec (.scan k t code m claimed) s =
          .next { s with
            bu := { s.bu with tills := s.bu.tills.set k.1 { s.bu.tills[k] with
              outstanding := some { tag := t, kind := .scan, wait := .recovery } } }
            deferred := s.deferred ++ [.scan k t code m] }) ∧
      (s.bu.tills[k].basket.lines.length < 64 → 0 < m.value ∨ s.level k claimed ≤ 1 → 1 ≤ code →
        s.is.recovered = true →
        (∀ f : Found, s.is.search code = some f → m.fits f.item.basis = true →
          exec (.scan k t code m claimed) s =
            .next (State.takeLine k t
              (scanLine (s.bu.tills[k].basket.lines.length + 1)
                { source := .localBank, owner := s.stn, gen := f.gen, item := f.item, level := f.level, dept := f.dept } m)
              { s with is := { s.is with accessed := Flags.set s.is.accessed f.position } })) ∧
        (∀ f : Found, s.is.search code = some f → m.fits f.item.basis = false →
          exec (.scan k t code m claimed) s =
            .next { s with is := { s.is with accessed := Flags.set s.is.accessed f.position }
                           out := s.out ++ [.answer k t (.refused .badQty)] }) ∧
        (∀ (e : CacheEntry) (c : CacheSet), s.is.search code = none → s.lu.cache[setOf code].look code = (some e, c) →
          m.fits e.item.basis = true →
          exec (.scan k t code m claimed) s =
            .next (State.takeLine k t
              (scanLine (s.bu.tills[k].basket.lines.length + 1)
                { source := .remote, owner := e.owner, gen := e.gen, item := e.item, level := e.level } m)
              { s with lu := { s.lu with cache := updAt s.lu.cache (setOf code) fun _ => c } })) ∧
        (∀ (e : CacheEntry) (c : CacheSet), s.is.search code = none → s.lu.cache[setOf code].look code = (some e, c) →
          m.fits e.item.basis = false →
          exec (.scan k t code m claimed) s =
            .next { s with lu := { s.lu with cache := updAt s.lu.cache (setOf code) fun _ => c }
                           out := s.out ++ [.answer k t (.refused .badQty)] }) ∧
        (∀ c : CacheSet, s.is.search code = none → s.lu.cache[setOf code].look code = (none, c) →
          ∀ seq : Nat, seq = (s.lu.queries[k].seq + 1) % 32 →
          (s.tp.trunk = .active → s.tp.qB.length < 16 →
            exec (.scan k t code m claimed) s =
              .next { s with
                tp := { s.tp with qB := s.tp.qB ++ [queryFrame (32 * k.val + seq) code .sale] }
                lu := { s.lu with queries := (s.lu.queries.set k.1
                  { state := .try1, code := code, purpose := .sale, tag := 32 * k.val + seq, ms := 20, seq := seq }) }
                bu := { s.bu with tills := s.bu.tills.set k.1 { s.bu.tills[k] with
                  outstanding := some { tag := t, kind := .scan, wait := .lookup }
                  scan := some { code := code, measure := some m } } } }) ∧
          (s.tp.trunk = .active → 16 ≤ s.tp.qB.length →
            exec (.scan k t code m claimed) s =
              .next { s with
                lu := { s.lu with queries := s.lu.queries.set k.1 { s.lu.queries[k] with seq := seq } }
                out := s.out ++ [.answer k t (.refused .busy)] }) ∧
          (s.tp.trunk ≠ .active →
            exec (.scan k t code m claimed) s =
              .next { s with
                lu := { s.lu with queries := s.lu.queries.set k.1 { s.lu.queries[k] with seq := seq } }
                out := s.out ++ [.answer k t (.refused .noTrunk)] })))) ∧
  (∀ (m : Measure) (basis : Basis) (code tag : Nat) (p : Purpose),
      (m.fits basis = true ↔ (∃ q, m = .quantity q) ∧ basis = .each ∨ (∃ g, m = .weight g) ∧ basis = .perKg) ∧
      (setOf code).val = code % 32 ∧
      queryFrame tag code p = { dest := .broadcast, tag := tag, payload := .priceQuery code p }) ∧
  (∀ (k : TillNo) (t n : Nat) (l x : Line) (b : Basket) (s : State),
      n = (if s.bu.tills[k].basket.lines = [] then 2 else 1) →
      (s.ju.recovered = true → State.takeLine k t l s = State.addLine k t l s) ∧
      (s.ju.recovered = false →
        State.takeLine k t l s = { s with
          bu := { s.bu with tills := s.bu.tills.set k.1 { s.bu.tills[k] with
            outstanding := some { tag := t, kind := if l.source = .keyed then .key else .scan, wait := .recovery } } }
          deferred := s.deferred ++ [.addLine k t l] }) ∧
      (s.ju.free < n → State.addLine k t l s = { s with out := s.out ++ [.answer k t (.refused .journalFull)] }) ∧
      (n ≤ s.ju.free →
        b = ({ s.bu.tills[k].basket with held := s.bu.tills[k].basket.held + n } : Basket).addLine l →
        b.line l.number = some x →
        State.addLine k t l s =
          { s with
            ju := { s.ju with free := s.ju.free - n, reserved := s.ju.reserved + n }
            bu := { s.bu with tills := s.bu.tills.set k.1 { s.bu.tills[k] with basket := b } }
            out := s.out ++ [.answer k t (.line x b.total b.limit)] }))

/-- ENQUIRE, past its checks: item code 0 is UNKNOWN-ITEM, the item store not asked; otherwise it is answered PRICE from
the bank in force or from the cache, no flag set and no basket changed, or the other stations are asked and the request
waits, refused BUSY or NO-TRUNK where the query is. KEY, past its checks: BASKET-FULL, then UNKNOWN-ITEM without a
department entry, LEVEL where the department sells no open price, where the level (the claimed one, or else the
session's) does not reach the open-price level, or for a return above level 1; otherwise a line of the keyed price at
the department's tax class and required level, taken as a SCAN's is. That both wait, still outstanding, for the item
store's recovery is the model's choice of how (log 5). -/
def Obligations.EnquireAndKeyAreAnswered : Prop :=
  (∀ (k : TillNo) (t code : Nat) (s : State), s.Accepts k .enquire → code ≤ 9999999999999 →
      (code = 0 →
        exec (.enquire k t code) s = .next { s with out := s.out ++ [.answer k t (.refused .unknownItem)] }) ∧
      (1 ≤ code → s.is.recovered = false →
        exec (.enquire k t code) s =
          .next { s with
            bu := { s.bu with tills := s.bu.tills.set k.1 { s.bu.tills[k] with
              outstanding := some { tag := t, kind := .enquire, wait := .recovery } } }
            deferred := s.deferred ++ [.enquire k t code] }) ∧
      (1 ≤ code → s.is.recovered = true →
        (∀ f : Found, s.is.search code = some f →
          exec (.enquire k t code) s =
            .next { s with out := s.out ++ [.answer k t (.price
              { code := f.item.code, source := .localBank, owner := s.stn, ownerGen := f.gen
                unitPrice := f.item.unitPrice, basis := f.item.basis, taxClass := f.item.taxClass
                promotion := f.item.promotion, packSize := f.item.packSize
                description := f.item.description })] }) ∧
        (∀ (e : CacheEntry) (c : CacheSet), s.is.search code = none → s.lu.cache[setOf code].look code = (some e, c) →
          exec (.enquire k t code) s =
            .next { s with
              lu := { s.lu with cache := updAt s.lu.cache (setOf code) fun _ => c }
              out := s.out ++ [.answer k t (.price
                { code := e.item.code, source := .remote, owner := e.owner, ownerGen := e.gen
                  unitPrice := e.item.unitPrice, basis := e.item.basis, taxClass := e.item.taxClass
                  promotion := e.item.promotion, packSize := e.item.packSize
                  description := e.item.description })] }) ∧
        (∀ (c : CacheSet) (seq : Nat), s.is.search code = none → s.lu.cache[setOf code].look code = (none, c) →
          seq = (s.lu.queries[k].seq + 1) % 32 →
          (s.tp.trunk = .active → s.tp.qB.length < 16 →
            exec (.enquire k t code) s =
              .next { s with
                tp := { s.tp with qB := s.tp.qB ++ [queryFrame (32 * k.val + seq) code .enquiry] }
                lu := { s.lu with queries := (s.lu.queries.set k.1
                  { state := .try1, code := code, purpose := .enquiry, tag := 32 * k.val + seq, ms := 20, seq := seq }) }
                bu := { s.bu with tills := s.bu.tills.set k.1 { s.bu.tills[k] with
                  outstanding := some { tag := t, kind := .enquire, wait := .lookup }
                  scan := some { code := code, measure := none } } } }) ∧
          (s.tp.trunk = .active → 16 ≤ s.tp.qB.length →
            exec (.enquire k t code) s =
              .next { s with
                lu := { s.lu with queries := s.lu.queries.set k.1 { s.lu.queries[k] with seq := seq } }
                out := s.out ++ [.answer k t (.refused .busy)] }) ∧
          (s.tp.trunk ≠ .active →
            exec (.enquire k t code) s =
              .next { s with
                lu := { s.lu with queries := s.lu.queries.set k.1 { s.lu.queries[k] with seq := seq } }
                out := s.out ++ [.answer k t (.refused .noTrunk)] })))) ∧
  (∀ (k : TillNo) (t d price : Nat) (q : Int) (claimed : Option Nat) (s : State), s.Accepts k .key → d ≤ 99 →
      price ≤ 9999999 → (Measure.quantity q).inRange = true → (∀ l, claimed = some l → l ≤ 3) →
      (64 ≤ s.bu.tills[k].basket.lines.length →
        exec (.key k t d price q claimed) s =
          .next { s with out := s.out ++ [.answer k t (.refused .basketFull)] }) ∧
      (s.bu.tills[k].basket.lines.length < 64 → s.is.recovered = false →
        exec (.key k t d price q claimed) s =
          .next { s with
            bu := { s.bu with tills := s.bu.tills.set k.1 { s.bu.tills[k] with
              outstanding := some { tag := t, kind := .key, wait := .recovery } } }
            deferred := s.deferred ++ [.key k t d price q claimed] }) ∧
      (s.bu.tills[k].basket.lines.length < 64 → s.is.recovered = true →
        (s.is.deptEntry d = none →
          exec (.key k t d price q claimed) s =
            .next { s with out := s.out ++ [.answer k t (.refused .unknownItem)] }) ∧
        ∀ e : DeptEntry, s.is.deptEntry d = some e →
          (e.openPrice = none ∨ (∃ l, e.openPrice = some l ∧ l < s.level k claimed) ∨ q < 0 ∧ 1 < s.level k claimed →
            exec (.key k t d price q claimed) s =
              .next { s with out := s.out ++ [.answer k t (.refused .level)] }) ∧
          (∀ l, e.openPrice = some l → s.level k claimed ≤ l → 0 < q ∨ s.level k claimed ≤ 1 →
            exec (.key k t d price q claimed) s =
              .next (State.takeLine k t
                { number := s.bu.tills[k].basket.lines.length + 1, subject := .dept d, source := .keyed, owner := s.stn
                  ownerGen := s.is.gen, measure := .quantity q, unitPrice := price, basis := .each
                  taxClass := e.taxClass, requiredLevel := e.overrideLevel, isReturn := decide (q < 0) } s)))) ∧
  ∀ (k : TillNo) (claimed : Option Nat) (s : State) (r : SetupRecord), s.sc.page = some r →
    (∀ l, claimed = some l → s.level k claimed = max l r.ceiling[k]) ∧
    (∀ x, claimed = none → s.bu.tills[k].session = some x → s.level k claimed = max x.level r.ceiling[k])

/-- VOID_LAST, of the highest-numbered line not VOIDED, VOID_LINE and OVERRIDE, of the line of the number given, change
one line that is not VOIDED and answer LINE with it; a void keeps the
line's amounts, an override sets its price and works it again under one more journal record; no such line is STATE.
That an OVERRIDE waits, still outstanding, for the journal's recovery before its reservation is the model's choice of
how (log 5). -/
def Obligations.LinesAreVoidedAndOverridden : Prop :=
  ∀ (k : TillNo) (t : Nat) (s : State),
    ((∀ l ∈ s.bu.tills[k].basket.lines, l.voided = true) → s.Accepts k .voidLast →
      exec (.voidLast k t) s = .next { s with out := s.out ++ [.answer k t (.refused .state)] }) ∧
    (∀ (l : Line) (b : Basket) (before after : List Line), s.Accepts k .voidLast →
      s.bu.tills[k].basket.lines = before ++ l :: after → l.voided = false → (∀ x ∈ after, x.voided = true) →
      b = s.bu.tills[k].basket.voidLine l →
      exec (.voidLast k t) s =
        .next { s with
          bu := { s.bu with tills := s.bu.tills.set k.1 { s.bu.tills[k] with basket := b } }
          out := s.out ++ [.answer k t (.line { l with voided := true } b.total b.limit)] }) ∧
    (∀ (l : Line) (b : Basket) (before after : List Line), s.Accepts k .voidLine → 1 ≤ l.number →
      l.number ≤ s.bu.tills[k].basket.lines.length → s.bu.tills[k].basket.lines = before ++ l :: after →
      (∀ x ∈ before, x.number ≠ l.number) →
      (l.voided = true →
        exec (.voidLine k t l.number) s = .next { s with out := s.out ++ [.answer k t (.refused .state)] }) ∧
      (l.voided = false → b = s.bu.tills[k].basket.voidLine l →
        exec (.voidLine k t l.number) s =
          .next { s with
            bu := { s.bu with tills := s.bu.tills.set k.1 { s.bu.tills[k] with basket := b } }
            out := s.out ++ [.answer k t (.line { l with voided := true } b.total b.limit)] })) ∧
    (∀ (l x : Line) (b : Basket) (before after : List Line) (price claimed : Nat), s.Accepts k .override →
      1 ≤ l.number → l.number ≤ s.bu.tills[k].basket.lines.length →
      s.bu.tills[k].basket.lines = before ++ l :: after → (∀ y ∈ before, y.number ≠ l.number) → price ≤ 9999999 →
      claimed ≤ 3 →
      (l.voided = true →
        exec (.override k t l.number price claimed) s =
          .next { s with out := s.out ++ [.answer k t (.refused .state)] }) ∧
      (l.voided = false → l.requiredLevel < s.level k (some claimed) →
        exec (.override k t l.number price claimed) s =
          .next { s with out := s.out ++ [.answer k t (.refused .level)] }) ∧
      (l.voided = false → s.level k (some claimed) ≤ l.requiredLevel → s.ju.recovered = false →
        exec (.override k t l.number price claimed) s =
          .next { s with
            bu := { s.bu with tills := s.bu.tills.set k.1 { s.bu.tills[k] with
              outstanding := some { tag := t, kind := .override, wait := .recovery } } }
            deferred := s.deferred ++ [.override k t price (s.level k (some claimed)) l] }) ∧
      (l.voided = false → s.level k (some claimed) ≤ l.requiredLevel → s.ju.recovered = true →
        (s.ju.free = 0 →
          exec (.override k t l.number price claimed) s =
            .next { s with out := s.out ++ [.answer k t (.refused .journalFull)] }) ∧
        (0 < s.ju.free →
          b = ({ s.bu.tills[k].basket with held := s.bu.tills[k].basket.held + 1 } : Basket).overrideLine l price
            (s.level k (some claimed)) →
          x = ({ l with priceBefore := some l.unitPrice, unitPrice := price, overridden := true
                        overrides := l.overrides ++ [{ oldPrice := l.unitPrice, newPrice := price
                                                       level := s.level k (some claimed) }] } : Line).work →
          exec (.override k t l.number price claimed) s =
            .next { s with
              ju := { s.ju with free := s.ju.free - 1, reserved := s.ju.reserved + 1 }
              bu := { s.bu with tills := s.bu.tills.set k.1 { s.bu.tills[k] with basket := b } }
              out := s.out ++ [.answer k t (.line x b.total b.limit)] })))

/-- SUBTOTAL works out the tax content and answers TOTALS; CANCEL above level 1 is refused LEVEL, and otherwise hands
a group with a CANCEL record; REFUND of a total above 0 is STATE, of a negative one above level 1 LEVEL, and
otherwise closes the sale and pays the total back. What a close with group end SALE does: the tax content at the
rates of setup, a guest code where one is issued, and the basket's group handed to the journal, its line and override
records first and its SALE record last; the request waits until the group is written. A group holds, line by line, its
LINE record, or its VOID record if the line is VOIDED, and after it the line's OVERRIDE records in the order taken, and
at its end the record of the close (R146). Model's readings: logs 40 (the SALE record's cash due, that of the closing
tender, none for a REFUND) and 41 (the CANCEL record's rounding difference of 0). -/
def Obligations.SubtotalCancelRefundAndSale : Prop :=
  (∀ (k : TillNo) (t : Nat) (s : State) (r : SetupRecord) (b : Basket), s.sc.page = some r →
      b = { s.bu.tills[k].basket with tax := some (taxContent s.bu.tills[k].basket.gross r.rates) } →
      (∀ x : TillRec, s.Accepts k .subtotal →
        x = { s.bu.tills[k] with basket := { b with state := if b.state = .opened then .subtotal else b.state } } →
        exec (.subtotal k t) s =
          .next { s with bu := { s.bu with tills := s.bu.tills.set k.1 x }
                         out := s.out ++ [.answer k t (.totals (x.totals r.cashStep))] }) ∧
      (∀ claimed : Nat, s.Accepts k .cancel → claimed ≤ 3 →
        (1 < s.level k (some claimed) →
          exec (.cancel k t claimed) s = .next { s with out := s.out ++ [.answer k t (.refused .level)] }) ∧
        (s.level k (some claimed) ≤ 1 →
          exec (.cancel k t claimed) s =
            .next { s with
              ju := { s.ju with queue := s.ju.queue ++ [{ holder := .till k, bodies := lineBodies b.lines ++ [.cancel
                { till := k, cashier := s.bu.tills[k].cashier, time := s.stamp, lineCount := b.lines.length
                  gross := b.gross, tax := b.taxes, total := b.total, rounding := 0, limit := b.limit }] }] }
              bu := { s.bu with tills := s.bu.tills.set k.1 { s.bu.tills[k] with
                basket := b, outstanding := some { tag := t, kind := .cancel, wait := .close }
                closing := some { kind := .cancel, total := b.total, paid := 0, code := none } } } })) ∧
      (∀ claimed : Option Nat, s.Accepts k .refund → (∀ l, claimed = some l → l ≤ 3) →
        (0 < b.total →
          exec (.refund k t claimed) s = .next { s with out := s.out ++ [.answer k t (.refused .state)] }) ∧
        (b.total < 0 → 1 < s.level k claimed →
          exec (.refund k t claimed) s = .next { s with out := s.out ++ [.answer k t (.refused .level)] }) ∧
        (b.total = 0 ∨ b.total < 0 ∧ s.level k claimed ≤ 1 →
          exec (.refund k t claimed) s = .next (State.closeSale k t .refund (-b.total) none 0 s)))) ∧
  (∀ (k : TillNo) (t : Nat) (kind : ReqKind) (paid rounding : Int) (due : Option Int) (s : State) (r : SetupRecord) (b : Basket)
      (serial : Option Nat) (g : GuestUnit) (code : Option GuestCode), s.sc.page = some r →
      b = { s.bu.tills[k].basket with tax := some (taxContent s.bu.tills[k].basket.gross r.rates) } →
      s.gu.issue r.threshold b.total s.stamp k = (serial, g) →
      code = serial.map (fun n => { issuer := s.stn, serial := n }) →
      State.closeSale k t kind paid due rounding s =
        { s with
          gu := g
          ju := { s.ju with queue := s.ju.queue ++ [{ holder := .till k, bodies := lineBodies b.lines ++ [.sale
            { till := k, cashier := s.bu.tills[k].cashier, time := s.stamp, lineCount := b.lines.length
              gross := b.gross, tax := b.taxes, total := b.total, tenders := b.tenders, paid := paid
              cashDue := due, rounding := rounding, limit := b.limit, promos := b.promoKeys, code := code }] }] }
          bu := { s.bu with tills := s.bu.tills.set k.1 { s.bu.tills[k] with
            basket := b, outstanding := some { tag := t, kind := kind, wait := .close }
            closing := some { kind := .sale, total := b.total, paid := paid, code := code } } } }) ∧
  lineBodies [] = [] ∧
  (∀ (l : Line) (ls : List Line), lineBodies (l :: ls) =
    (if l.voided then .voidLine l.toLineBody else .line l.toLineBody) ::
      l.overrides.map (fun o => .override l.number o.oldPrice o.newPrice o.level) ++ lineBodies ls) ∧
  ∀ ls : List Line, recordsOf ls = ls.length + sumOf (fun l : Line => l.overrides.length) ls + 1

/-- TENDER: a basket total of 0 or below is STATE, a card or voucher above the remaining amount OVER-TENDER, a fourth
tender that would not close BASKET-FULL; otherwise the tender is applied, and closes the sale or is answered
TENDERED. A CASH tender of t against remaining amount A with cash due c: below both it is partial and applies t; of c
or more it closes, applies A, gives change t - c and a rounding difference of c - A; of A or more but below c it
closes, applies A, gives no change and a rounding difference of t - A. A CARD or VOUCHER tender applies t without
change or rounding and closes when nothing remains. The cash due is the remaining amount rounded to the step, and the
SALE record of a close takes that which stood before the tender. Model's readings: logs 40 and 51. -/
def Obligations.TendersApplyByTheirMethod : Prop :=
  (∀ (k : TillNo) (t amount : Nat) (method : TenderMethod) (s : State) (r : SetupRecord) (p : TenderPlan) (b b' : Basket),
      s.Accepts k .tender → s.sc.page = some r → 1 ≤ amount → amount ≤ 999999999 → b = s.bu.tills[k].basket →
      p = planTender method amount b.remaining r.cashStep →
      b' = { b with tax := some (taxContent b.gross r.rates)
                    tenders := b.tenders ++ [{ method := method, tendered := amount, applied := p.applied }] } →
      (b.total ≤ 0 →
        exec (.tender k t method amount) s = .next { s with out := s.out ++ [.answer k t (.refused .state)] }) ∧
      (0 < b.total → method ≠ .cash → b.remaining < amount →
        exec (.tender k t method amount) s = .next { s with out := s.out ++ [.answer k t (.refused .overTender)] }) ∧
      (0 < b.total → method = .cash ∨ amount ≤ b.remaining → 3 ≤ b.tenders.length → p.closes = false →
        exec (.tender k t method amount) s = .next { s with out := s.out ++ [.answer k t (.refused .basketFull)] }) ∧
      (0 < b.total → method = .cash ∨ amount ≤ b.remaining → b.tenders.length < 3 → p.closes = false →
        exec (.tender k t method amount) s =
          .next { s with
            bu := { s.bu with tills := s.bu.tills.set k.1 { s.bu.tills[k] with basket := { b' with state := .tendering } } }
            out := s.out ++ [.answer k t (.tendered (b.tenders.length + 1) method p.applied b'.remaining
              (b'.cashDue r.cashStep))] }) ∧
      (0 < b.total → method = .cash ∨ amount ≤ b.remaining → p.closes = true →
        exec (.tender k t method amount) s =
          .next (State.closeSale k t .tender p.change (some (roundDiv b.remaining r.cashStep * r.cashStep)) p.rounding
            { s with bu := { s.bu with tills := s.bu.tills.set k.1 { s.bu.tills[k] with basket := b' } } }))) ∧
  (∀ (t A c : Int) (step : Nat), c = roundDiv A step * step → 0 < A →
      (t < c → t < A →
        planTender .cash t A step = { applied := t, change := 0, rounding := 0, closes := false }) ∧
      (c ≤ t → planTender .cash t A step = { applied := A, change := t - c, rounding := c - A, closes := true }) ∧
      (t < c → A ≤ t → planTender .cash t A step = { applied := A, change := 0, rounding := t - A, closes := true }) ∧
      (∀ m : TenderMethod, m ≠ .cash → t ≤ A →
        planTender m t A step = { applied := t, change := 0, rounding := 0, closes := decide (A - t = 0) }) ∧
      (step = 1 → c = A) ∧ (step = 5 → -2 ≤ c - A ∧ c - A ≤ 2) ∧ (step = 10 → -4 ≤ c - A ∧ c - A ≤ 5))

/-- Rounded division: for a numerator of 0 or more the largest integer not above (2n + d) / 2d, for one below 0 the
negation of that of its magnitude. Tax content, cash due and the comparison price are rounded divisions. A worked
line: price times quantity, or the rounded division of price times grams by 1,000, clamped to 99,999,999 either way,
the line's LIMIT flag saying whether the clamp changed it; a percent-off line not overridden takes the rounded
division of extended amount times percent by 100 off; the net amount is the difference. A promotion entry is worked
from the counted lines of its key (SCAN lines of its item code and owner generation, basis EACH, with a multi-buy
promotion, none VOIDED, OVERRIDDEN or PROMO-SKIPPED): the count is the sum of their quantities raised to 0, the
groups the whole multiples of N in it, and the discount the groups times what a group saves, clamped to 99,999,999. A
class gross is the sum of the net amounts of the class's lines that are not VOIDED, less the discounts of its
promotion entries, clamped to 999,999,999 either way; the total is the sum of the four, clamped alike. After a change
of lines the basket's amounts are these, no tax content is held and the basket is OPEN; its LIMIT flag is set by a clamp
and stays set. The promotion table of at most 16 entries changes with the lines of a key alone: an entry there is worked
again and removed at count 0; without one, a count above 0 creates it with the terms of the line added, or of the first
counted line where a line was taken away, unless 16 stand; a counted line of other terms, and one that finds no place,
is PROMO-SKIPPED. Model's readings: log 44 (a new entry goes to the end). -/
def Obligations.AmountsFollowTheStages : Prop :=
  ((∀ (n : Int) (d : Nat), 0 < d →
      (0 ≤ n → 2 * d * roundDiv n d ≤ 2 * n + d ∧ 2 * n + d < 2 * d * (roundDiv n d + 1)) ∧
      (n < 0 → roundDiv n d = -roundDiv (-n) d) ∧
      (2 * (n - d * roundDiv n d)).natAbs ≤ d ∧ roundDiv n 1 = n) ∧
    (∀ (gross : Vector Int 4) (rates : Vector Nat 4) (k : Fin 4),
      (taxContent gross rates)[k] = roundDiv (gross[k] * rates[k]) (10000 + rates[k]) ∧
        ((taxContent gross rates)[k]).natAbs ≤ (gross[k]).natAbs) ∧
    (∀ (b : Basket) (step : Nat), 0 < b.total →
      b.cashDue step = roundDiv (b.total - (b.tenders.map fun t => t.applied).sum) step * step) ∧
    ∀ (r : ItemRecord) (pack : Nat), r.basis = .each → r.packSize = some pack →
      r.comparison = some (min (roundDiv (r.unitPrice * 1000) pack).toNat 9999999)) ∧
  (∀ (l w : Line) (raw : Int), w = l.work →
      ((∀ q : Int, l.basis = .each → l.measure = .quantity q → raw = l.unitPrice * q) →
        (∀ g : Int, l.basis = .perKg → l.measure = .weight g → raw = roundDiv (l.unitPrice * g) 1000) →
        l.measure.fits l.basis = true →
        w.extended = (if 99999999 < raw then 99999999 else if raw < -99999999 then -99999999 else raw) ∧
          (w.limit = true ↔ 99999999 < raw ∨ raw < -99999999)) ∧
      (∀ p : Nat, l.promotion = some (.percentOff p) → l.overridden = false →
        w.discount = roundDiv (w.extended * p) 100 ∧
          (p ≤ 90 → 0 ≤ w.extended → 0 ≤ w.net ∧ w.net ≤ w.extended) ∧
          (p ≤ 90 → w.extended ≤ 0 → w.net ≤ 0 ∧ w.extended ≤ w.net)) ∧
      (l.overridden = true ∨ (∀ p : Nat, l.promotion ≠ some (.percentOff p)) → w.discount = 0) ∧
      w.net = w.extended - w.discount ∧ w.number = l.number ∧ w.unitPrice = l.unitPrice ∧ w.measure = l.measure ∧
      w.taxClass = l.taxClass ∧ w.voided = l.voided ∧ w.promotion = l.promotion) ∧
  (∀ (ls : List Line) (e w : PromoEntry) (counted : Line → Bool), w = e.work ls → 1 ≤ e.n →
      (∀ l : Line, counted l = true ↔ l.subject = .item e.code ∧ l.ownerGen = e.gen ∧ l.basis = .each ∧
        (∃ n m, l.promotion = some (.multiBuy n m)) ∧ l.voided = false ∧ l.overridden = false ∧
        l.promoSkipped = false) →
      (w.count : Int) = max 0 ((ls.filter counted).map fun l => l.measure.value).sum ∧
        w.groups * e.n ≤ w.count ∧ w.count < (w.groups + 1) * e.n ∧
        w.discount = min (w.groups * (if e.m < e.n * e.price then e.n * e.price - e.m else 0)) 99999999 ∧
        w.code = e.code ∧ w.gen = e.gen ∧ w.n = e.n ∧ w.m = e.m ∧ w.price = e.price ∧ w.taxClass = e.taxClass) ∧
  ((∀ (ls : List Line) (ps : List PromoEntry) (k : Fin 4) (g : Int),
      g = ((ls.filter fun l => !l.voided && l.taxClass == k.val).map fun l => l.net).sum -
        ((ps.filter fun e => e.taxClass == k.val).map fun e => (e.discount : Int)).sum →
      (amountsOf ls ps).gross[k] = max (-999999999) (min 999999999 g)) ∧
    (∀ (ls : List Line) (ps : List PromoEntry) (a : Amounts), a = amountsOf ls ps →
      a.total = max (-999999999) (min 999999999 (a.gross[0] + a.gross[1] + a.gross[2] + a.gross[3]))) ∧
    (∀ (b b' : Basket) (l : Line),
      b' = b.addLine l ∨ b' = b.voidLine l ∨ (∃ price level, b' = b.overrideLine l price level) →
      b'.amounts = some (amountsOf b'.lines b'.promos) ∧ b'.tax = none ∧ b'.state = .opened ∧
        b'.tenders = b.tenders ∧ b'.held = b.held ∧ (b.limit = true → b'.limit = true) ∧
        (b.promos.length ≤ 16 → b'.promos.length ≤ 16) ∧
        (b'.limit = false → stage5Clamps b'.lines b'.promos = false) ∧
        ((b' = b.addLine l → l.work.limit = true → b'.limit = true) ∧
          (∀ price level, b' = b.overrideLine l price level →
            ({ l with unitPrice := price, overridden := true } : Line).work.limit = true → b'.limit = true))) ∧
    (∀ (ls : List Line) (ps : List PromoEntry), stage5Clamps ls ps = true ↔
      (∃ (k : Fin 4) (g : Int),
        g = ((ls.filter fun l => !l.voided && l.taxClass == k.val).map fun l => l.net).sum -
          ((ps.filter fun e => e.taxClass == k.val).map fun e => (e.discount : Int)).sum ∧
        (999999999 < g ∨ g < -999999999)) ∨
      ∃ a : Amounts, a = amountsOf ls ps ∧
        (999999999 < a.gross[0] + a.gross[1] + a.gross[2] + a.gross[3] ∨
          a.gross[0] + a.gross[1] + a.gross[2] + a.gross[3] < -999999999)) ∧
    (∀ (b : Basket) (l x : Line) (k : PromoKey) (rest skipped : List Line) (entry : PromoEntry),
      x = l.work → rest = b.lines ++ [x] → skipped = b.lines ++ [{ x with promoSkipped := true }] →
      (∀ y ∈ b.lines, y.number ≠ l.number) →
      (x.promoKey = none → (b.addLine l).promos = b.promos ∧ (b.addLine l).lines = rest) ∧
      (x.promoKey = some k →
        (∀ (e : PromoEntry) (before after : List PromoEntry), b.promos = before ++ e :: after →
          e.code = k.code → e.gen = k.gen → (∀ y ∈ before ++ after, y.code ≠ k.code ∨ y.gen ≠ k.gen) →
          (∀ ls : List Line, ls = (if x.terms = e.terms then rest else skipped) →
            (b.addLine l).lines = ls ∧
              (b.addLine l).promos = before ++ (if (e.work ls).count = 0 then [] else [e.work ls]) ++ after ∧
              (99999999 < (e.work ls).groups * (e.n * e.price - e.m) → (b.addLine l).limit = true))) ∧
        ((∀ y ∈ b.promos, y.code ≠ k.code ∨ y.gen ≠ k.gen) →
          (countOf rest k = 0 → (b.addLine l).promos = b.promos ∧ (b.addLine l).lines = rest) ∧
          (0 < countOf rest k → 16 ≤ b.promos.length →
            (b.addLine l).promos = b.promos ∧ (b.addLine l).lines = skipped) ∧
          (0 < countOf rest k → b.promos.length < 16 →
            entry = { code := k.code, gen := k.gen, n := x.terms.n, m := x.terms.m, price := x.terms.price
                      taxClass := x.terms.taxClass, count := 0, groups := 0, discount := 0 } →
            ∀ ls : List Line,
              ls = rest.map (fun y => if y.counts k = true ∧ y.terms ≠ x.terms then { y with promoSkipped := true } else y) →
              (b.addLine l).lines = ls ∧
                (b.addLine l).promos = b.promos ++ (if (entry.work ls).count = 0 then [] else [entry.work ls]) ∧
                (99999999 < (entry.work ls).groups * (entry.n * entry.price - entry.m) → (b.addLine l).limit = true))))) ∧
    (∀ (b b' : Basket) (l x : Line) (k : PromoKey) (price level : Nat) (left : List Line),
      (b' = b.voidLine l ∧ x = { l with voided := true }) ∨
        (b' = b.overrideLine l price level ∧
          x = ({ l with priceBefore := some l.unitPrice, unitPrice := price, overridden := true
                        overrides := l.overrides ++ [{ oldPrice := l.unitPrice, newPrice := price
                                                       level := level }] } : Line).work) →
      left = b.lines.map (fun y => if y.number = l.number then x else y) →
      (l.promoKey = none ∨ (∃ j, l.promoKey = some j ∧ l.counts j = false) → b'.promos = b.promos ∧ b'.lines = left) ∧
      (l.promoKey = some k → l.counts k = true →
        (∀ (e : PromoEntry) (before after : List PromoEntry), b.promos = before ++ e :: after →
          e.code = k.code → e.gen = k.gen → (∀ y ∈ before ++ after, y.code ≠ k.code ∨ y.gen ≠ k.gen) →
          b'.lines = left ∧
            b'.promos = before ++ (if (e.work left).count = 0 then [] else [e.work left]) ++ after ∧
            (99999999 < (e.work left).groups * (e.n * e.price - e.m) → b'.limit = true)) ∧
        ((∀ y ∈ b.promos, y.code ≠ k.code ∨ y.gen ≠ k.gen) →
          (countOf left k = 0 → b'.promos = b.promos ∧ b'.lines = left) ∧
          (0 < countOf left k → 16 ≤ b.promos.length → b'.promos = b.promos ∧
            b'.lines = left.map fun y => if y.counts k = true then { y with promoSkipped := true } else y) ∧
          (∀ f : Line, 0 < countOf left k → b.promos.length < 16 → left.find? (fun y => y.counts k) = some f →
            ∀ (entry : PromoEntry) (ls : List Line),
              entry = { code := k.code, gen := k.gen, n := f.terms.n, m := f.terms.m, price := f.terms.price
                        taxClass := f.terms.taxClass, count := 0, groups := 0, discount := 0 } →
              ls = left.map (fun y => if y.counts k = true ∧ y.terms ≠ f.terms then { y with promoSkipped := true } else y) →
              b'.lines = ls ∧
                b'.promos = b.promos ++ (if (entry.work ls).count = 0 then [] else [entry.work ls]) ∧
                (99999999 < (entry.work ls).groups * (entry.n * entry.price - entry.m) → b'.limit = true))))) ∧
    (∀ (l : Line) (k : PromoKey),
      (l.promoKey = some k ↔
        l.subject = .item k.code ∧ l.ownerGen = k.gen ∧ l.basis = .each ∧ ∃ n m, l.promotion = some (.multiBuy n m)) ∧
      (l.counts k = true ↔
        l.promoKey = some k ∧ l.voided = false ∧ l.overridden = false ∧ l.promoSkipped = false) ∧
      ∀ n m, l.promotion = some (.multiBuy n m) →
        l.terms = { n := n, m := m, price := l.unitPrice, taxClass := l.taxClass }) ∧
    ∀ (b : Basket) (l : Line) (price level : Nat),
      (b.addLine l).lines.map (fun x => x.number) = b.lines.map (fun x => x.number) ++ [l.number] ∧
        (b.voidLine l).lines.map (fun x => x.number) = b.lines.map (fun x => x.number) ∧
        (b.overrideLine l price level).lines.map (fun x => x.number) = b.lines.map (fun x => x.number))


/-! ## Chapter 6: parked baskets -/

/-- PARK puts the basket into the lowest FREE park entry with its reservation, empties the till's basket and answers
the ticket; with none FREE it is refused BUSY. A local RECALL frees the entry, installs its lines with their totals
worked again, and answers RECALLED; one IN-TRANSFER is refused IN-USE, one FREE or ABANDONING NO-TICKET. -/
def Obligations.BasketsAreParkedAndRecalled : Prop :=
  ∀ (k : TillNo) (t : Nat) (s : State),
    (s.Accepts k .park → (∀ j : ParkNo, s.bu.park[j].state ≠ .free) →
      exec (.park k t) s = .next { s with out := s.out ++ [.answer k t (.refused .busy)] }) ∧
    (∀ j : ParkNo, s.Accepts k .park → s.bu.park[j].state = .free →
      (∀ i : ParkNo, i < j → s.bu.park[i].state ≠ .free) →
      exec (.park k t) s =
        .next { s with
          bu := { s.bu with
            tills := s.bu.tills.set k.1 { s.bu.tills[k] with basket := {} }
            park := (s.bu.park.set j.1
              { state := .parked, held := s.bu.tills[k].basket.held, content := some
                  { lines := s.bu.tills[k].basket.lines, promos := s.bu.tills[k].basket.promos
                    limit := s.bu.tills[k].basket.limit, origin := k, cashier := s.bu.tills[k].cashier
                    parked := s.stamp, held := s.bu.tills[k].basket.held } }) }
          out := s.out ++ [.answer k t (.parked (s.stn.val * 100 + j.val))] }) ∧
    (∀ j : ParkNo, s.Accepts k .recall →
      (s.bu.park[j].state = .inTransfer →
        exec (.recallTicket k t (s.stn.val * 100 + j.val)) s =
          .next { s with out := s.out ++ [.answer k t (.refused .inUse)] }) ∧
      (s.bu.park[j].state = .free ∨ s.bu.park[j].state = .abandoning →
        exec (.recallTicket k t (s.stn.val * 100 + j.val)) s =
          .next { s with out := s.out ++ [.answer k t (.refused .noTicket)] }) ∧
      (∀ (c : ParkContent) (b : Basket), s.bu.park[j].state = .parked → s.bu.park[j].content = some c →
        b = { state := .opened, lines := c.lines, promos := c.promos, amounts := some (amountsOf c.lines c.promos)
              limit := c.limit || stage5Clamps c.lines c.promos, held := s.bu.park[j].held } →
        exec (.recallTicket k t (s.stn.val * 100 + j.val)) s =
          .next { s with
            bu := { s.bu with
              tills := s.bu.tills.set k.1 { s.bu.tills[k] with outstanding := none, scan := none, basket := b }
              park := s.bu.park.set j.1 {} }
            out := s.out ++ [.answer k t (.recalled (s.stn.val * 100 + j.val) c.lines.length b.total b.limit)] }))

/-- The owner's side of a transfer. A RECALL of a PARKED entry hands its content in parts and makes it IN-TRANSFER for
300 ms; where a part finds no room the parts before it stay handed and the entry is PARKED again, or, abandon pending,
abandoned in the same event (R115, R121); the parts, 1 to 4 of them, hold the lines in order and part 1 the head. One of
an entry IN-TRANSFER is answered IN-USE and any other NO-TICKET. A RELEASE of the transfer's own requester and tag frees
the entry and its reservation where RELEASED is placed, and changes nothing where it is refused; any other is answered
TOO-LATE. TRANSFER_TIMER_EXPIRY: an entry IN-TRANSFER is PARKED again, or, abandon pending, is abandoned: all but one
record of its reservation is released, its ABANDON record is handed to the journal and it is ABANDONING. Any other entry
is left as it is. Model's readings: logs 2, 11 and 53. -/
def Obligations.OwnerAnswersTransfers : Prop :=
  (∀ (src : Station) (tag ticket : Nat) (till : TillNo) (s : State), src ≠ s.stn → s.tp.trunk = .active →
      ((∀ j : ParkNo, ticket ≠ s.stn.val * 100 + j.val) →
        exec (.recallFrame src tag ticket till) s =
          .next { s.heard with tp := (s.heard.tp.handOver (frameTo src tag (.releaseAnswer ticket .noTicket))).2 } ∧
        exec (.release src tag ticket) s =
          .next { s.heard with tp := (s.heard.tp.handOver (frameTo src tag (.releaseAnswer ticket .tooLate))).2 }) ∧
      ∀ (j : ParkNo) (e : ParkEntry), ticket = s.stn.val * 100 + j.val → e = s.bu.park[j] →
        (e.state = .free ∨ e.state = .abandoning →
          exec (.recallFrame src tag ticket till) s =
            .next { s.heard with tp := (s.heard.tp.handOver (frameTo src tag (.releaseAnswer ticket .noTicket))).2 }) ∧
        (e.state = .inTransfer →
          exec (.recallFrame src tag ticket till) s =
            .next { s.heard with tp := (s.heard.tp.handOver (frameTo src tag (.releaseAnswer ticket .inUse))).2 }) ∧
        (∀ c : ParkContent, e.state = .parked → e.content = some c →
          (s.tp.qB.length + c.partCount ≤ 16 →
            exec (.recallFrame src tag ticket till) s =
              .next { s.heard with
                tp := { s.heard.tp with
                  qB := s.tp.qB ++ (c.parts e.held).map fun p => frameTo src tag (.parkData ticket p) }
                bu := { s.bu with park := (s.bu.park.set j.1 { e with
                  state := .inTransfer, ms := 300, requester := some { station := src, till := till, tag := tag } }) } }) ∧
          (∀ (handed : List Frame) (a : Amounts), 16 < s.tp.qB.length + c.partCount →
            handed = ((c.parts e.held).take (16 - s.tp.qB.length)).map (fun p => frameTo src tag (.parkData ticket p)) →
            a = amountsOf c.lines c.promos →
            (e.abandonPending = false →
              exec (.recallFrame src tag ticket till) s =
                .next { s.heard with
                  tp := { s.heard.tp with qB := s.tp.qB ++ handed }
                  bu := { s.bu with park := (s.bu.park.set j.1
                    { e with state := .parked, ms := 0, requester := none }) } }) ∧
            (e.abandonPending = true →
              exec (.recallFrame src tag ticket till) s =
                .next { s.heard with
                  tp := { s.heard.tp with qB := s.tp.qB ++ handed }
                  ju := { s.ju.release (e.held - 1) with queue := s.ju.queue ++ [{ holder := .park j, bodies := [.abandon
                    { ticket := ticket, origin := c.origin, cashier := c.cashier, parked := c.parked
                      time := s.stamp, lineCount := c.lines.length, gross := a.gross, total := a.total
                      limit := c.limit }] }] }
                  bu := { s.bu with park := (s.bu.park.set j.1 { e with
                    state := .abandoning, held := 1, requester := none, ms := 0, abandonPending := false }) } }))) ∧
        (∀ r : Requester, e.state = .inTransfer → e.requester = some r → r.station = src → r.tag = tag →
          (s.tp.qB.length < 16 →
            exec (.release src tag ticket) s =
              .next { s.heard with
                tp := { s.heard.tp with qB := s.tp.qB ++ [frameTo src tag (.releaseAnswer ticket .released)] }
                ju := s.ju.release e.held
                bu := { s.bu with park := s.bu.park.set j.1 {} } }) ∧
          (16 ≤ s.tp.qB.length → exec (.release src tag ticket) s = .next s.heard)) ∧
        (e.state ≠ .inTransfer ∨ (∀ r : Requester, e.requester = some r → r.station ≠ src ∨ r.tag ≠ tag) →
          exec (.release src tag ticket) s =
            .next { s.heard with tp := (s.heard.tp.handOver (frameTo src tag (.releaseAnswer ticket .tooLate))).2 })) ∧
  (∀ (j : ParkNo) (s : State) (e : ParkEntry), e = s.bu.park[j] →
      (e.state ≠ .inTransfer → exec (.transferTimerExpiry j) s = .next s) ∧
      (e.state = .inTransfer → e.abandonPending = false →
        exec (.transferTimerExpiry j) s =
          .next { s with
            bu := { s.bu with park := (s.bu.park.set j.1 { e with state := .parked, ms := 0, requester := none }) } }) ∧
      (∀ (c : ParkContent) (a : Amounts), e.state = .inTransfer → e.abandonPending = true → e.content = some c →
        a = amountsOf c.lines c.promos →
        exec (.transferTimerExpiry j) s =
          .next { s with
            ju := { s.ju.release (e.held - 1) with queue := s.ju.queue ++ [{ holder := .park j, bodies := [.abandon
              { ticket := s.stn.val * 100 + j.val, origin := c.origin, cashier := c.cashier, parked := c.parked
                time := s.stamp, lineCount := c.lines.length, gross := a.gross, total := a.total
                limit := c.limit }] }] }
            bu := { s.bu with park := (s.bu.park.set j.1 { e with
              state := .abandoning, held := 1, requester := none, ms := 0, abandonPending := false }) } })) ∧
  ∀ (c : ParkContent) (held : Nat), 1 ≤ c.partCount ∧ c.partCount ≤ 4 ∧ (c.parts held).length = c.partCount ∧
    (c.parts held).flatMap ParkPart.lines = c.lines ∧
    ∀ (i : Nat) (p : ParkPart), (c.parts held)[i]? = some p → p.k = i + 1 ∧ p.n = c.partCount ∧
      p.head = if i = 0 then
          some { origin := c.origin, cashier := c.cashier, parked := c.parked, lineCount := c.lines.length, held := held
                 limit := c.limit, promos := c.promos }
        else none

/-- A RECALL of another station's ticket: RECALL-FAILED where that station is ABSENT, JOURNAL-FULL where 65 records
cannot be reserved, BUSY or NO-TRUNK where the frame is refused; otherwise 65 records are reserved, the recall
context asks for 150 ms under the next recall sequence, the basket is RECALLING and the request waits. That the
request waits, still outstanding and its basket RECALLING, for the journal's recovery before its reservation, and is
judged whole, its owner's ABSENCE too, when it is taken up, is the model's choice of how (logs 5 and 54). -/
def Obligations.RemoteRecallAsksTheOwner : Prop :=
  (∀ (k : TillNo) (t ticket : Nat) (owner : Station) (slot : ParkNo) (s u : State),
    ticket = owner.val * 100 + slot.val → owner ≠ s.stn → s.pending = [] → s.ju.recovered = true →
    s.deferred = [.recall k t ticket owner] →
    u = { s with
      deferred := []
      bu := { s.bu with tills := s.bu.tills.set k.1 { s.bu.tills[k] with
        outstanding := none, scan := none, basket := { s.bu.tills[k].basket with state := .empty } } } } →
    u.Accepts k .recall → step s = exec (.recallTicket k t ticket) u) ∧
  ∀ (k : TillNo) (t ticket seq : Nat) (owner : Station) (slot : ParkNo) (s : State), s.Accepts k .recall →
    ticket = owner.val * 100 + slot.val → owner ≠ s.stn → seq = (s.bu.recalls[k].seq + 1) % 32 →
    (s.tp.peers[owner].state = .absent →
      exec (.recallTicket k t ticket) s = .next { s with out := s.out ++ [.answer k t (.refused .recallFailed)] }) ∧
    (s.tp.peers[owner].state ≠ .absent → s.ju.recovered = false →
      exec (.recallTicket k t ticket) s =
        .next { s with
          bu := { s.bu with tills := s.bu.tills.set k.1 { s.bu.tills[k] with
            basket := { s.bu.tills[k].basket with state := .recalling }
            outstanding := some { tag := t, kind := .recall, wait := .recovery } } }
          deferred := s.deferred ++ [.recall k t ticket owner] }) ∧
    (s.ju.recovered = true →
      (s.tp.peers[owner].state ≠ .absent → s.ju.free < 65 →
        exec (.recallTicket k t ticket) s = .next { s with out := s.out ++ [.answer k t (.refused .journalFull)] }) ∧
      (s.tp.peers[owner].state ≠ .absent → 65 ≤ s.ju.free → s.tp.trunk = .active → s.tp.qB.length < 16 →
        exec (.recallTicket k t ticket) s =
          .next { s with
            tp := { s.tp with qB := s.tp.qB ++ [frameTo owner (32 * k.val + seq) (.recall ticket k)] }
            ju := { s.ju with free := s.ju.free - 65, reserved := s.ju.reserved + 65 }
            bu := { s.bu with
              recalls := (s.bu.recalls.set k.1
                { phase := .asking, ticket := ticket, owner := owner, tag := 32 * k.val + seq, reserved := 65
                  ms := 150, seq := seq })
              tills := (s.bu.tills.set k.1 { s.bu.tills[k] with
                basket := { s.bu.tills[k].basket with state := .recalling }
                outstanding := some { tag := t, kind := .recall, wait := .recall } }) } }) ∧
      (s.tp.peers[owner].state ≠ .absent → 65 ≤ s.ju.free → s.tp.trunk ≠ .active ∨ 16 ≤ s.tp.qB.length →
        exec (.recallTicket k t ticket) s =
          .next { s with
            bu := { s.bu with recalls := s.bu.recalls.set k.1 { s.bu.recalls[k] with seq := seq } }
            out := s.out ++ [.answer k t (.refused (if s.tp.trunk = .active then .busy else .noTrunk))] }))

/-- The requester's side of a transfer. The first part of the content settles the reservation and restarts the timer,
each further part not yet taken is recorded, and the last one hands RELEASE; RELEASED installs the basket and answers
RECALLED; TOO-LATE, IN-USE, NO-TICKET, the timer's expiry, a further reservation refused (JOURNAL-FULL) and a RELEASE
that finds no room (BUSY) fail the recall: the reservation is released, the basket is EMPTY and the till is refused. A
frame is for the context whose owner, tag and ticket are its own; a part other than part 1 in ASKING, a PARK DATA for no
context in ASKING or RECEIVING, and a RELEASE ANSWER in a phase that does not take it are discarded with nothing
changed, but for the count of a RELEASED that comes after its context has ended; the content is that of the head with
the lines of the parts in the order of their numbers. Model's readings: logs 2 and 27. -/
def Obligations.RequesterTakesTheContentAndCompletes : Prop :=
  (∀ (src : Station) (tag ticket : Nat) (k : TillNo) (s : State) (c : RecallCtx) (o : Outstanding)
    (failed : Refused → State → State),
    src ≠ s.stn → s.tp.trunk = .active → c = s.bu.recalls[k] → s.bu.tills[k].outstanding = some o →
    (∀ r u, failed r u = { u with
      ju := u.ju.release u.bu.recalls[k].reserved
      bu := { u.bu with
        recalls := (u.bu.recalls.set k.1 { seq := c.seq })
        tills := (u.bu.tills.set k.1 { u.bu.tills[k] with
          outstanding := none, scan := none, basket := { u.bu.tills[k].basket with state := .empty } }) }
      out := u.out ++ [.answer k o.tag (.refused r)] }) →
    (c.phase = .asking → s.ctxFor src tag ticket (fun p => decide (p = .asking) || decide (p = .receiving)) = some k →
      ∀ (p : ParkPart) (h : ParkHead), p.k = 1 → p.head = some h → c.taken = [] →
        (h.held ≤ 65 → 1 < p.n →
          exec (.parkData src tag ticket p) s =
            .next { s.heard with
              ju := s.ju.release (65 - h.held)
              bu := { s.bu with recalls := (s.bu.recalls.set k.1 { c with
                phase := .receiving, parts := p.n, head := some h, reserved := h.held, taken := [(1, p.lines)]
                ms := 150 }) } }) ∧
        (h.held ≤ 65 → p.n = 1 → s.tp.qB.length < 16 →
          exec (.parkData src tag ticket p) s =
            .next { s.heard with
              tp := { s.heard.tp with qB := s.tp.qB ++ [frameTo c.owner c.tag (.release c.ticket)] }
              ju := s.ju.release (65 - h.held)
              bu := { s.bu with recalls := (s.bu.recalls.set k.1 { c with
                phase := .releasing, parts := 1, head := some h, reserved := h.held, taken := [(1, p.lines)]
                ms := 150 }) } }) ∧
        (65 < h.held → h.held - 65 ≤ s.ju.free → 1 < p.n →
          exec (.parkData src tag ticket p) s =
            .next { s.heard with
              ju := { s.ju with free := s.ju.free - (h.held - 65), reserved := s.ju.reserved + (h.held - 65) }
              bu := { s.bu with recalls := (s.bu.recalls.set k.1 { c with
                phase := .receiving, parts := p.n, head := some h, reserved := h.held, taken := [(1, p.lines)]
                ms := 150 }) } }) ∧
        (65 < h.held → h.held - 65 ≤ s.ju.free → p.n = 1 → s.tp.qB.length < 16 →
          exec (.parkData src tag ticket p) s =
            .next { s.heard with
              tp := { s.heard.tp with qB := s.tp.qB ++ [frameTo c.owner c.tag (.release c.ticket)] }
              ju := { s.ju with free := s.ju.free - (h.held - 65), reserved := s.ju.reserved + (h.held - 65) }
              bu := { s.bu with recalls := (s.bu.recalls.set k.1 { c with
                phase := .releasing, parts := 1, head := some h, reserved := h.held, taken := [(1, p.lines)]
                ms := 150 }) } }) ∧
        (65 < h.held → s.ju.free < h.held - 65 →
          exec (.parkData src tag ticket p) s = .next (failed .journalFull s.heard)) ∧
        (∀ settled : JournalUnit,
          settled = (if h.held ≤ 65 then s.ju.release (65 - h.held)
            else { s.ju with free := s.ju.free - (h.held - 65), reserved := s.ju.reserved + (h.held - 65) }) →
          h.held ≤ 65 ∨ h.held - 65 ≤ s.ju.free → p.n = 1 → 16 ≤ s.tp.qB.length →
          exec (.parkData src tag ticket p) s = .next (failed .busy { s.heard with
            ju := settled
            bu := { s.bu with recalls := (s.bu.recalls.set k.1 { c with reserved := h.held }) } }))) ∧
    (c.phase = .receiving →
      s.ctxFor src tag ticket (fun p => decide (p = .asking) || decide (p = .receiving)) = some k →
      ∀ p : ParkPart,
        (2 ≤ p.k → p.k ≤ c.parts → (∀ e ∈ c.taken, e.1 ≠ p.k) → c.taken.length + 1 < c.parts →
          exec (.parkData src tag ticket p) s =
            .next { s.heard with bu := { s.bu with recalls := (s.bu.recalls.set k.1 { c with
              taken := c.taken ++ [(p.k, p.lines)], ms := 150 }) } }) ∧
        (2 ≤ p.k → p.k ≤ c.parts → (∀ e ∈ c.taken, e.1 ≠ p.k) → c.taken.length + 1 = c.parts →
          s.tp.qB.length < 16 →
          exec (.parkData src tag ticket p) s =
            .next { s.heard with
              tp := { s.heard.tp with qB := s.tp.qB ++ [frameTo c.owner c.tag (.release c.ticket)] }
              bu := { s.bu with recalls := (s.bu.recalls.set k.1 { c with
                phase := .releasing, taken := c.taken ++ [(p.k, p.lines)], ms := 150 }) } }) ∧
        (2 ≤ p.k → p.k ≤ c.parts → (∀ e ∈ c.taken, e.1 ≠ p.k) → c.taken.length + 1 = c.parts →
          16 ≤ s.tp.qB.length → exec (.parkData src tag ticket p) s = .next (failed .busy s.heard)) ∧
        (p.k < 2 ∨ c.parts < p.k ∨ (∃ e ∈ c.taken, e.1 = p.k) →
          exec (.parkData src tag ticket p) s = .next s.heard)) ∧
    (s.ctxFor src tag ticket (fun p => decide (p = .releasing)) = some k →
      (∀ (x : ParkContent) (b : Basket), c.content = some x →
        b = { state := .opened, lines := x.lines, promos := x.promos, amounts := some (amountsOf x.lines x.promos)
              limit := x.limit || stage5Clamps x.lines x.promos, held := c.reserved } →
        exec (.releaseAnswer src tag ticket .released) s =
          .next { s.heard with
            bu := { s.bu with
              recalls := (s.bu.recalls.set k.1 { seq := c.seq })
              tills := (s.bu.tills.set k.1 { s.bu.tills[k] with outstanding := none, scan := none, basket := b }) }
            out := s.out ++ [.answer k o.tag (.recalled c.ticket x.lines.length b.total b.limit)] }) ∧
      exec (.releaseAnswer src tag ticket .tooLate) s = .next (failed .recallFailed s.heard)) ∧
    (s.ctxFor src tag ticket (fun p => decide (p = .asking)) = some k →
      exec (.releaseAnswer src tag ticket .inUse) s = .next (failed .inUse s.heard) ∧
      exec (.releaseAnswer src tag ticket .noTicket) s = .next (failed .noTicket s.heard)) ∧
    (c.phase ≠ .idle → exec (.recallTimerExpiry k) s = .next (failed .recallFailed s))) ∧
  (∀ (k : TillNo) (s : State), s.bu.recalls[k].phase = .idle → exec (.recallTimerExpiry k) s = .next s) ∧
  (∀ (src : Station) (tag ticket : Nat) (s : State) (its : (RecallPhase → Bool) → Option TillNo), src ≠ s.stn →
      s.tp.trunk = .active → (∀ p, its p = s.ctxFor src tag ticket p) →
      (∀ p : ParkPart,
        (its (fun p => decide (p = .asking) || decide (p = .receiving)) = none →
          exec (.parkData src tag ticket p) s = .next s.heard) ∧
        ∀ k : TillNo, its (fun p => decide (p = .asking) || decide (p = .receiving)) = some k →
          s.bu.recalls[k].phase = .asking → p.k ≠ 1 → exec (.parkData src tag ticket p) s = .next s.heard) ∧
      (its (fun p => decide (p = .releasing)) = none →
        exec (.releaseAnswer src tag ticket .tooLate) s = .next s.heard ∧
        (its (fun p => decide (p ≠ .idle)) ≠ none → exec (.releaseAnswer src tag ticket .released) s = .next s.heard) ∧
        (its (fun p => decide (p ≠ .idle)) = none →
          exec (.releaseAnswer src tag ticket .released) s =
            .next { s.heard with bu := { s.bu with lostTransfers := bump s.bu.lostTransfers } })) ∧
      (its (fun p => decide (p = .asking)) = none →
        exec (.releaseAnswer src tag ticket .inUse) s = .next s.heard ∧
        exec (.releaseAnswer src tag ticket .noTicket) s = .next s.heard)) ∧
  (∀ (s : State) (src : Station) (tag ticket : Nat) (p : RecallPhase → Bool) (its : TillNo → Prop),
    (∀ k : TillNo, its k ↔ p s.bu.recalls[k].phase = true ∧ s.bu.recalls[k].owner = src ∧ s.bu.recalls[k].tag = tag ∧
      s.bu.recalls[k].ticket = ticket) →
    (s.ctxFor src tag ticket p = none ↔ ∀ k, ¬its k) ∧
    ∀ k : TillNo, s.ctxFor src tag ticket p = some k ↔ its k ∧ ∀ j : TillNo, j < k → ¬its j) ∧
  ∀ c : RecallCtx, (c.head = none → c.content = none) ∧
    ∀ (h : ParkHead) (ls : List (List Line)), c.head = some h → c.parts = ls.length →
      (∀ i x, ls[i]? = some x → ∃ l r, c.taken = l ++ (i + 1, x) :: r ∧ ∀ e ∈ l, e.1 ≠ i + 1) →
      c.content = some { lines := ls.flatten, promos := h.promos, limit := h.limit, origin := h.origin
                         cashier := h.cashier, parked := h.parked, held := h.held }


/-! ## Chapter 7: shelf labels -/

/-- LABEL_WAKE while the radio runs and no exchange is open. A label's place is slot i mod S of the cycle and exchange
position i / S in it, 8 positions to a slot: a label whose place in this cycle has passed is left as it is. At its
place one that has no wake in this cycle, or that is UNBOUND or in REVIEW, is sent nothing; an UNCHECKED one is sent a
PING, a STALE one a DISPLAY; a CURRENT one a PING at its sixteenth wake, or at once after a failure; an UNREACHABLE one
at its sixty-fourth wake. All is sent on the label channel of setup. A PING carries a rebase, from the generation that
the label was last heard to show to the one it is confirmed at, where both are known and differ; a DISPLAY carries the
content of the record at the bound position of the active bank, or none for a blank. A stopped radio sends nothing.
Model's readings: log 28. -/
def Obligations.LabelWakeSendsByState : Prop :=
  (∀ (i slots : Nat) (s : State) (e : LabelEntry) (due : Prop) (passed : LabelRadio)
      (sent : LabelEntry → Bool → Bool → LabelMsg → State),
    e = s.lrc.label i → s.lrc.exchange = none → slots = s.lrc.slots.getD 512 →
    (due ↔ e.state ≠ .unbound ∧
      (e.wakeClass = .fast ∨ (s.lrc.cycle + i) % s.lrc.period.getD 2 = 0 ∨ 0 < e.stayFast)) →
    passed = { s.lrc with placed := some (8 * (i % slots) + i / slots) } →
    (∀ e' display blank m, sent e' display blank m = { s with
      lrc := { passed.setLabel i e' with
        exchange := some { label := i, display := display, blank := blank, gen := s.is.gen } }
      out := s.out ++ [.label ((s.sc.page.map fun r => r.channel).getD 0) m] }) →
    (s.lrc.running = false → exec (.labelWake i) s = .next s) ∧
    (∀ p, s.lrc.placed = some p → 8 * (i % slots) + i / slots ≤ p → exec (.labelWake i) s = .next s) ∧
    (s.lrc.running = true → (∀ p, s.lrc.placed = some p → p < 8 * (i % slots) + i / slots) →
      (¬due → exec (.labelWake i) s = .next { s with lrc := passed }) ∧
      (due →
        (e.state = .review → exec (.labelWake i) s = .next { s with lrc := passed.setLabel i e }) ∧
        (e.state = .unchecked → exec (.labelWake i) s = .next (sent e false false (.ping i e.rebase))) ∧
        (e.state = .stale →
          exec (.labelWake i) s =
            .next (sent e true e.blankPending (.display i s.is.gen (e.displayed s.is.activeBank)))) ∧
        (e.state = .current →
          (e.failCount = 0 → e.wakeCount < 15 →
            exec (.labelWake i) s =
              .next { s with lrc := passed.setLabel i { e with wakeCount := e.wakeCount + 1 } }) ∧
          (e.failCount ≠ 0 ∨ 15 ≤ e.wakeCount →
            exec (.labelWake i) s = .next (sent { e with wakeCount := 0 } false false (.ping i e.rebase)))) ∧
        (e.state = .unreachable →
          (e.wakeCount < 63 →
            exec (.labelWake i) s =
              .next { s with lrc := passed.setLabel i { e with wakeCount := e.wakeCount + 1 } }) ∧
          (63 ≤ e.wakeCount → e.blankPending = true ∨ e.confirmed ≠ some s.is.gen →
            exec (.labelWake i) s =
              .next (sent { e with wakeCount := 0 } true e.blankPending
                (.display i s.is.gen (e.displayed s.is.activeBank)))) ∧
          (63 ≤ e.wakeCount → e.blankPending = false → e.confirmed = some s.is.gen →
            exec (.labelWake i) s = .next (sent { e with wakeCount := 0 } false false (.ping i e.rebase))))))) ∧
  (∀ (e : LabelEntry) (bank : Option Bank),
    (∀ a b : Nat, e.shown = some a → e.confirmed = some b → e.rebase = if a = b then none else some (a, b)) ∧
    (e.shown = none ∨ e.confirmed = none → e.rebase = none) ∧
    (e.blankPending = true ∨ bank = none ∨ e.position = none → e.displayed bank = none) ∧
    ∀ (b : Bank) (p : Nat) (r : ItemRecord), e.blankPending = false → bank = some b → e.position = some p →
      b.records[p]? = some r →
      e.displayed bank = some
        { unitPrice := r.unitPrice, basis := r.basis
          comparison := match r.basis, r.packSize with
            | .each, some g => some (min (roundDiv (r.unitPrice * 1000) g).toNat 9999999)
            | _, _ => none
          promotion := r.promotion, description := r.description })

/-- LABEL_ACK of the label in exchange records what the label reports and clears its fail count. Under the generation
in force and without a display fault, a label that shows it is CURRENT, or UNBOUND after a blank; any other report
makes it STALE, and in an exchange of an earlier generation a label in REVIEW stays there. An answer that fails its
check or names another label counts as none. LABEL_NO_ANSWER raises the fail count, and the sixth failure of a STALE,
UNCHECKED or CURRENT label makes it UNREACHABLE. -/
def Obligations.LabelAnswersSetTheState : Prop :=
  ∀ (a : LabelAck) (s : State),
    (s.lrc.exchange = none → exec (.labelAck a) s = .next s ∧ exec .labelNoAnswer s = .next s) ∧
    ∀ (x : Exchange) (e h : LabelEntry) (ends : LabelEntry → State), s.lrc.exchange = some x → e = s.lrc.label x.label →
      h = { e with shown := some a.shown, batteryLow := a.batteryLow, displayFault := a.displayFault, failCount := 0 } →
      (∀ e', ends e' = { s with lrc := { s.lrc.setLabel x.label e' with exchange := none } }) →
      (a.checkOk = false ∨ a.label ≠ x.label → exec (.labelAck a) s = exec .labelNoAnswer s) ∧
      (a.checkOk = true → a.label = x.label → x.gen = s.is.gen →
        (a.shown = s.is.gen → a.displayFault = false → x.display = true → x.blank = true →
          exec (.labelAck a) s = .next (ends { h with
            state := .unbound, blankPending := false, stayFast := 0, wakeCount := 0, confirmed := none })) ∧
        (a.shown = s.is.gen → a.displayFault = false → x.display = false ∨ x.blank = false →
          exec (.labelAck a) s = .next (ends { h with
            state := .current, confirmed := some s.is.gen, wakeCount := 0, stayFast := 0 })) ∧
        (a.shown ≠ s.is.gen ∨ a.displayFault = true →
          exec (.labelAck a) s = .next (ends { h with state := .stale, confirmed := none }))) ∧
      (a.checkOk = true → a.label = x.label → x.gen ≠ s.is.gen →
        exec (.labelAck a) s = .next (ends { h with
          state := if e.state = .review then .review else .stale, confirmed := none })) ∧
      (e.failCount < 5 ∨ e.state = .unbound ∨ e.state = .review ∨ e.state = .unreachable →
        exec .labelNoAnswer s = .next (ends { e with failCount := min (e.failCount + 1) 6 })) ∧
      (5 ≤ e.failCount → e.state = .stale ∨ e.state = .unchecked ∨ e.state = .current →
        exec .labelNoAnswer s = .next (ends { e with
          failCount := 6, state := .unreachable, wakeCount := 0, stayFast := 0 }))

/-- LABEL_CYCLE_END: the cycle number rises by 1, returning to 0 after 4,294,967,295, and a cycle of the slots in use
begins, every label's place to come. At the end of a pass every stay-fast falls by 1, and the sweep ends when no label
is STALE or after the fourth pass. Model's readings: log 2. -/
def Obligations.CycleEndsAndPassesAreCounted : Prop :=
  ∀ s : State,
    (s.lrc.running = false → exec .labelCycleEnd s = .next s) ∧
    (s.lrc.running = true → s.lrc.passOn = false →
      exec .labelCycleEnd s = .next { s with lrc := { s.lrc with
        cycle := (s.lrc.cycle + 1) % 4294967296, cycleMs := s.lrc.slots.getD 512 * 20, placed := none
        passOn := s.lrc.sweep } }) ∧
    (∀ ended : Bool, s.lrc.running = true → s.lrc.passOn = true → Tbl.wf {} s.lrc.labels = true →
      (ended = true ↔ (∀ i : Nat, (s.lrc.label i).state ≠ .stale) ∨ 3 ≤ s.lrc.passCount) →
      ∃ t, exec .labelCycleEnd s = .next t ∧
        t.lrc.cycle = (s.lrc.cycle + 1) % 4294967296 ∧ t.lrc.cycleMs = s.lrc.slots.getD 512 * 20 ∧
        (∀ i : Nat, t.lrc.label i =
          { s.lrc.label i with stayFast := if ended then 0 else (s.lrc.label i).stayFast - 1 }) ∧
        t.lrc.sweep = (!ended && s.lrc.sweep) ∧ t.lrc.passOn = (!ended && s.lrc.sweep) ∧
        t.lrc.passCount = (if ended then 0 else s.lrc.passCount + 1) ∧
        t = { s with lrc := { s.lrc with
          cycle := t.lrc.cycle, cycleMs := t.lrc.cycleMs, placed := none, labels := t.lrc.labels, sweep := t.lrc.sweep
          passOn := t.lrc.passOn, passCount := t.lrc.passCount } })

/-- REVIEW_WALK_END: every label takes its verdict in one event, the review is over, and a running radio begins a sweep,
each STALE label of the slow class staying fast for four passes; a build that waited is made instead, with the radio of
a SET station started. A switchover that is due by then follows. The verdicts: a label that a record of the new bank
carries is bound to it, CURRENT where the old bank's record keeps its content and the label was confirmed at the old
bank's generation, and STALE otherwise; a label in REVIEW that no record carries owes a blank; a label whose fail count
is 6 is UNREACHABLE in place of either. A label CURRENT or UNREACHABLE by its verdict has a wake count of 0; the fail
count, the generation shown and the battery and display flags stay, and so do other labels. A build makes the table anew
from the bank in force, at cycle 0; the radio starts from slot 0 of cycle 0 with the S and k used for the record's, each
changed one setting its clamp flag (R125, R139, R140). Model's readings: logs 2 and 28. -/
def Obligations.WalkEndAppliesEveryVerdict : Prop :=
  (∀ s : State,
      (s.lrc.review = none → exec .reviewWalkEnd s = .next s) ∧
      ∀ v : Review, s.lrc.review = some v →
        (v.rebuild = true →
          exec .reviewWalkEnd s = .next (State.switchIfDue { s with lrc :=
            match s.sc.page with
            | some r => (s.lrc.build s.is.activeBank).startRadio r
            | none => s.lrc.build s.is.activeBank })) ∧
        (v.rebuild = false → Tbl.wf {} s.lrc.labels = true →
          ∃ u : State, exec .reviewWalkEnd s = .next u.switchIfDue ∧
            (∀ (i : Nat) (e : LabelEntry),
              e = (s.lrc.label i).verdict (verdictOf (v.oldBank.map s.is.bank) (s.is.bank v.newBank) i (s.lrc.label i))
                ((v.oldBank.map s.is.bank).map Bank.sealGen) s.is.gen →
              u.lrc.label i = { e with
                stayFast :=
                  if s.lrc.running then (if e.state = .stale ∧ e.wakeClass = .slow then 4 else 0) else e.stayFast }) ∧
            u.lrc.review = none ∧ u.lrc.sweep = s.lrc.running ∧ u.lrc.passCount = 0 ∧ u.lrc.passOn = false ∧
            u = { s with lrc := { s.lrc with
              labels := u.lrc.labels, review := none, sweep := s.lrc.running, passCount := 0, passOn := false } })) ∧
  (∀ (l t : LabelRadio) (i : ItemStore) (r : SetupRecord),
      (t = l.build i.activeBank →
        t = { l with
          labels := t.labels, cycle := 0, sweep := false, passCount := 0, passOn := false, review := none
          exchange := none, placed := none } ∧
        (i.selected = none → t.labels = []) ∧
        ∀ b : BankNo, i.selected = some b → t.labels = bindRecords [] (i.bank b).records) ∧
      (t = l.startRadio r →
        (t.slotsClamped = true ↔ clampSlots r.slots ≠ r.slots) ∧
        (t.periodClamped = true ↔ clampPeriod r.period ≠ r.period) ∧
        t = { l with
          running := true, cycle := 0, cycleMs := 20 * clampSlots r.slots, slots := some (clampSlots r.slots)
          period := some (clampPeriod r.period), slotsClamped := t.slotsClamped, periodClamped := t.periodClamped
          exchange := none, placed := none })) ∧
  (∀ (old : Option Bank) (new : Bank) (i gen : Nat) (e t : LabelEntry),
      t = e.verdict (verdictOf old new i e) (old.map Bank.sealGen) gen →
      (∀ (p : Nat) (r : ItemRecord) (kept : Bool), new.records[p]? = some r → r.labelIndex = some i →
        (∀ (q : Nat) (x : ItemRecord), new.records[q]? = some x → x.labelIndex = some i → q = p) →
        (kept = true ↔ ∃ b, old = some b ∧ e.confirmed = some b.sealGen ∧
          ∃ o ∈ b.records, o.code = r.code ∧ o.labelIndex = some i ∧ o.content = r.content) →
        t = { e with
          position := some p, wakeClass := r.labelClass.getD .slow, blankPending := false
          confirmed := if kept then some gen else none
          state := if e.failCount = 6 then .unreachable else if kept then .current else .stale
          wakeCount := if e.failCount = 6 ∨ kept = true then 0 else e.wakeCount }) ∧
      ((∀ r ∈ new.records, r.labelIndex ≠ some i) →
        (e.state = .review →
          t = { e with
            position := none, wakeClass := .slow, blankPending := true, confirmed := none
            state := if e.failCount = 6 then .unreachable else .stale
            wakeCount := if e.failCount = 6 then 0 else e.wakeCount }) ∧
        (e.state ≠ .review → t = e)))


/-! ## Chapter 8: the journal -/

/-- A group is written at the tail, its records in order under successive sequence numbers, each page's word with the
sequence number of the page's first record; the committed end moves to the tail, the reserved slots become used, and no
other slot and no other page word is written; where no page is in erase and the oldest one now lies behind the head and
is not the newest, its erase begins and its 256 slots are no longer counted used. JOURNAL_GROUP_WRITTEN: the oldest
group's end record is written and its holder is told: a till's basket is EMPTY and the till is answered CLOSED with the
group number, an abandoned park entry is FREE; the moved committed end is a sending opportunity of the upload. Model's
readings: logs 36 and 57 (the whole group is written in this event). -/
def Obligations.GroupsAreWrittenAtTheTail : Prop :=
  (∀ (j t : JournalUnit) (g : Group), t = j.writeGroup g → g.bodies.length ≤ 65536 →
      t.tailPos = j.tailPos + g.bodies.length ∧ t.cend = t.tailPos ∧
      t.nextSeq = j.nextSeq + BitVec.ofNat 32 g.bodies.length ∧
      (∀ (i : Nat) (b : JBody), g.bodies[i]? = some b →
        t.slotAt (j.tailPos + i) = .record { body := b, seq := j.nextSeq + BitVec.ofNat 32 i } false ∧
        ((j.tailPos + i) % 256 = 0 →
          t.wordAt ((j.tailPos + i) / 256 % 256) = some (j.nextSeq + BitVec.ofNat 32 i))) ∧
      (∀ p : Nat, (∀ i, i < g.bodies.length → p % 65536 ≠ (j.tailPos + i) % 65536) → t.slotAt p = j.slotAt p) ∧
      (∀ page : Nat, (∀ i, i < g.bodies.length → (j.tailPos + i) % 256 = 0 → (j.tailPos + i) / 256 % 256 ≠ page) →
        t.wordAt page = j.wordAt page) ∧
      (g.bodies.length ≤ j.reserved →
        t.reserved = j.reserved - g.bodies.length ∧
        ∀ opened : Prop,
          (opened ↔ j.recovered = true ∧ t.tailPos % 256 = 0 ∧ t.wordAt (t.tailPos / 256 % 256) ≠ none ∧
            t.tailPos + j.erasingCount < j.oldest + 65536) →
          (j.erasing = none → j.oldest + 256 ≤ j.head →
            j.oldest + 256 < t.tailPos ∨ opened ∧ j.oldest + 256 = t.tailPos → 256 ≤ j.used + g.bodies.length →
            t.erasing = some { page := j.oldest / 256 % 256, ms := 20 } ∧ t.oldest = j.oldest + 256 ∧
              t.used + 256 = j.used + g.bodies.length) ∧
          (j.erasing ≠ none ∨ j.head < j.oldest + 256 ∨ t.tailPos < j.oldest + 256 ∨
              t.tailPos = j.oldest + 256 ∧ ¬opened ∨ j.used + g.bodies.length < 256 →
            t.erasing = j.erasing ∧ t.oldest = j.oldest ∧ t.used = j.used + g.bodies.length)) ∧
      t.free = j.free ∧ t.head = j.head ∧ t.readPos = j.readPos ∧ t.inflight = j.inflight ∧ t.queue = j.queue) ∧
  (∀ (s : State) (g : Group) (rest : List Group) (j : JournalUnit),
      (s.ju.queue = [] → exec .journalGroupWritten s = .next s) ∧
      (s.ju.queue = g :: rest → j = { s.ju with queue := rest }.writeGroup g →
        (∀ (k : TillNo) (o : Outstanding) (c : CloseInfo), g.holder = .till k → s.bu.tills[k].outstanding = some o →
          s.bu.tills[k].closing = some c →
          exec .journalGroupWritten s =
            .next (State.opportunity { s with
              ju := j
              bu := { s.bu with tills := (s.bu.tills.set k.1 { s.bu.tills[k] with
                outstanding := none, closing := none, basket := {} }) }
              out := s.out ++ [.answer k o.tag (.closed (j.nextSeq - 1) c.kind c.total c.paid c.code)] })) ∧
        ∀ p : ParkNo, g.holder = .park p →
          exec .journalGroupWritten s =
            .next (State.opportunity { s with ju := j, bu := { s.bu with park := s.bu.park.set p.1 {} } })))

/-- JOURNAL_PAGE_ERASE_COMPLETE: the page is erased and its 256 slots are free; a RECOVERED record that waited is then
written and gives the upload an opportunity; and the next vacated page begins its erase. JOURNAL_RECOVERY makes the
journal anew from its pages, leaves nothing reserved, queued or in flight, and is a sending opportunity; once done, a
second one does nothing. What it finds: with no page written, an empty journal. Otherwise the pages with a page word are
one run from the oldest page f, each page's word within 256 of the word before; the tail follows the last slot written
in the newest one, and a last record left incomplete becomes a void slot. The next sequence number is one more than the
last complete record's, or the newest page's word. The records after the last group-closing one are an unfinished group:
a RECOVERED record of its first sequence number and its number of records closes it at the tail, or, where no erased
slot follows the tail, is owed and the committed end stands before the group's first record, behind any older void slot;
without such records the committed end is the tail. The head passes acknowledged records and void slots alone.
Everything from the oldest page to the tail is used; a page with content and no word is being erased, since the reset or
from now on, and else the oldest page is, where all of it lies behind the head and it is not the newest. A newest page
with its word and no slot written is the tail's page. Model's readings: logs 2, 35, 36, 49 and 58. -/
def Obligations.EraseFreesThePageAndRecoveryRebuilds : Prop :=
  (∀ s : State,
    (s.ju.erasing = none → exec .journalPageEraseComplete s = .next s) ∧
    (∀ (e : PageErase) (j : JournalUnit), s.ju.erasing = some e →
      j = { s.ju with
        erasing := none, free := s.ju.free + 256, words := Tbl.put none s.ju.words e.page none
        slots := s.ju.slots.filter fun x => decide (x.1 / 256 ≠ e.page) } →
      (s.ju.owed = none → exec .journalPageEraseComplete s = .next { s with ju := j.startErase }) ∧
      (∀ o : Owed, s.ju.owed = some o →
        exec .journalPageEraseComplete s =
          .next (State.opportunity { s with ju := (JournalUnit.startErase
            { j.writeRecord (.recovered true o.first o.found) with
              free := j.free - 1, used := j.used + 1, cend := j.tailPos + 1, owed := none }) }))) ∧
    (∀ (j : JournalUnit) (p : Nat) (opened : Prop),
      (opened ↔ j.recovered = true ∧ j.tailPos % 256 = 0 ∧ j.wordAt (j.tailPos / 256 % 256) ≠ none ∧
        j.tailPos + j.erasingCount < j.oldest + 65536) →
      (j.erasing = none → j.oldest + 256 ≤ j.head → j.oldest + 256 < j.tailPos ∨ opened ∧ j.oldest + 256 = j.tailPos →
        256 ≤ j.used → p = j.oldest / 256 % 256 →
        j.startErase =
          { j with erasing := some { page := p, ms := 20 }, oldest := j.oldest + 256, used := j.used - 256 }) ∧
      (j.erasing ≠ none ∨ j.head < j.oldest + 256 ∨ j.tailPos < j.oldest + 256 ∨
          j.tailPos = j.oldest + 256 ∧ ¬opened ∨ j.used < 256 →
        j.startErase = j)) ∧
    (s.ju.recovered = true → exec .journalRecovery s = .next s) ∧
    (s.ju.recovered = false →
      exec .journalRecovery s = .next (State.opportunity { s with ju := s.ju.recover }))) ∧
  (∀ j t : JournalUnit, t = j.recover →
    t.recovered = true ∧ t.reserved = 0 ∧ t.queue = [] ∧ t.inflight = [] ∧ t.readPos = t.head ∧
      t.used + t.reserved + t.free + t.erasingCount = 65536 ∧
      (j.slots = [] → (∀ p, j.wordAt p = none) →
        t = { words := j.words, erasing := j.erasing, free := 65536 - j.erasingCount, recovered := true })) ∧
  ∀ (j t v : JournalUnit) (w : Nat → Seq) (f m u oldest tail c : Nat) (next : Seq) (gone : Option Nat),
    t = j.recover → f < 256 → m < 256 → u ≤ 256 → oldest = 256 * f → tail = 256 * f + 256 * m + u →
    (∀ i, i ≤ m → j.wordAt ((f + i) % 256) = some (w i)) → (∀ i, m < i → i < 256 → j.wordAt ((f + i) % 256) = none) →
    (∀ i, i < m → (w (i + 1) - w i).toNat ≤ 256) → (m = 255 → 256 < (w 0 - w 255).toNat) →
    (∀ p, oldest ≤ p → p < tail → j.slotAt p ≠ .erased) → (∀ i, u ≤ i → i < 256 → j.slotAt (tail - u + i) = .erased) →
    (u = 0 → j.slotAt (tail - 1) ≠ .incomplete) →
    (∀ e, j.erasing = some e → gone = some e.page) → (gone = none → ∀ e ∈ j.slots, j.wordAt (e.1 / 256) ≠ none) →
    (∀ g, gone = some g → g < 256 ∧ (∃ e ∈ j.slots, e.1 / 256 = g) ∧
      ∀ e ∈ j.slots, j.wordAt (e.1 / 256) = none ↔ e.1 / 256 = g) →
    v = (if j.slotAt (tail - 1) = .incomplete then { j with slots := Tbl.put .erased j.slots ((tail - 1) % 65536) .void }
         else j) →
    (∀ p r a, oldest ≤ p → p < tail → v.slotAt p = .record r a →
      (∀ q, p < q → q < tail → ∀ r' a', v.slotAt q ≠ .record r' a') → next = r.seq + 1) →
    ((∀ p, oldest ≤ p → p < tail → ∀ r a, v.slotAt p ≠ .record r a) → next = w m) →
    oldest ≤ c → c ≤ tail → (c = oldest ∨ ∃ r a, v.slotAt (c - 1) = .record r a ∧ r.body.closes = true) →
    (∀ p r a, c ≤ p → p < tail → v.slotAt p = .record r a → r.body.closes = false) →
    ((∀ p, c ≤ p → p < tail → ∀ r a, v.slotAt p ≠ .record r a) →
      t.cend = tail ∧ t.tailPos = tail ∧ t.nextSeq = next ∧ t.owed = none ∧ t.words = j.words ∧ t.slots = v.slots) ∧
    (∀ p r a n, c ≤ p → p < tail → v.slotAt p = .record r a →
      (∀ q, c ≤ q → q < p → ∀ r' a', v.slotAt q ≠ .record r' a') →
      n = (List.range (tail - c)).countP (fun i => match v.slotAt (c + i) with | .record _ _ => true | _ => false) →
      (j.slotAt tail = .erased → gone ≠ some (tail / 256 % 256) →
        t.cend = tail + 1 ∧ t.tailPos = tail + 1 ∧ t.nextSeq = next + 1 ∧ t.owed = none ∧
          t.slotAt tail = .record { body := .recovered true r.seq n, seq := next } false ∧
          (∀ q, q % 65536 ≠ tail % 65536 → t.slotAt q = v.slotAt q) ∧
          ∀ q, t.wordAt q = if tail % 256 = 0 ∧ q = tail / 256 % 256 then some next else j.wordAt q) ∧
      (j.slotAt tail ≠ .erased ∨ gone = some (tail / 256 % 256) →
        t.cend = p ∧ t.tailPos = tail ∧ t.nextSeq = next ∧ t.owed = some { first := r.seq, found := n } ∧
          t.words = j.words ∧ t.slots = v.slots)) ∧
    oldest ≤ t.head ∧ t.head ≤ t.cend ∧
    (∀ p, oldest ≤ p → p < t.head → t.slotAt p = .void ∨ ∃ r, t.slotAt p = .record r true) ∧
    (t.head < t.cend → ¬(t.slotAt t.head = .void ∨ ∃ r, t.slotAt t.head = .record r true)) ∧
    (gone = none → oldest + 256 ≤ t.head → oldest + 256 < t.tailPos ∨ u = 0 ∧ t.tailPos = tail →
      t.erasing = some { page := f, ms := 20 } ∧ t.oldest = oldest + 256 ∧ t.used + 256 = t.tailPos - oldest) ∧
    (gone ≠ none ∨ t.head < oldest + 256 ∨ t.tailPos ≤ oldest + 256 ∧ (0 < u ∨ t.tailPos ≠ tail) →
      t.erasing = (if j.erasing = none then gone.map fun p => { page := p, ms := 20 } else j.erasing) ∧
        t.oldest = oldest ∧ t.used = t.tailPos - oldest)


/-! ## Chapter 9: forwarding -/

/-- A packet is routed by the longest prefix that covers its destination, the first in the table's order among equal
ones; a prefix covers an address whose first bits, as many as its length, are the prefix's. The table lists the setup
routes before the learned ones, and these in the order of their stations. What becomes of a packet of 20 to 1,500
bytes by its route: a mask that forbids its origin class drops it, and a guest packet from the air is a strike
against its client besides; the next hops deliver it to the till line of its address, to the guest unit, to a station
on the trunk that is not ABSENT, or to the carrier, and no packet that came by RELAY crosses the trunk again. A drop
is counted by the origin class, and for want of a carrier in its own counter. -/
def Obligations.PacketsAreRoutedByTheLongestPrefix : Prop :=
  ((∀ (rs : List Route) (dst : NetAddr),
      (bestRoute rs dst = none ↔ ∀ r ∈ rs, r.net.covers dst = false) ∧
      ∀ r : Route, bestRoute rs dst = some r ↔
        r.net.covers dst = true ∧ ∃ before after, rs = before ++ r :: after ∧
          (∀ x ∈ before, x.net.covers dst = true → x.net.len < r.net.len) ∧
          (∀ x ∈ after, x.net.covers dst = true → x.net.len ≤ r.net.len)) ∧
    (∀ (n : Net) (a : NetAddr), n.len ≤ 32 →
      (n.covers a = true ↔ ∀ i, i < n.len → a.getMsbD i = n.addr.getMsbD i)) ∧
    (∀ (f : Forwarding) (r : Route), r ∈ f.table ↔
      r ∈ f.setupRoutes ∨ ∃ (n : Station) (net : Net), f.learned[n] = some net ∧
        r = { net := net, hop := .trunkStation n, till := true, office := true, guest := false }) ∧
    ∀ f : Forwarding, f.table = f.setupRoutes ++ (List.finRange 16).filterMap fun n => f.learned[n].map fun net =>
      { net := net, hop := .trunkStation n, till := true, office := true, guest := false }) ∧
  (∀ (from_ : Entry) (cls : OriginClass) (p : Packet) (s : State),
      (p.len < 20 ∨ 1500 < p.len → s.route from_ cls p = s.dropPacket cls) ∧
      (20 ≤ p.len → p.len ≤ 1500 →
        (bestRoute s.fu.table p.dst = none → s.route from_ cls p = s.dropPacket cls) ∧
        ∀ r : Route, bestRoute s.fu.table p.dst = some r →
          (r.permits cls = false →
            (∀ a, from_ = .guestAir a → cls = .guest → s.route from_ cls p = (s.dropPacket cls).strike a) ∧
            ((∀ a, from_ ≠ .guestAir a) ∨ cls ≠ .guest → s.route from_ cls p = s.dropPacket cls)) ∧
          (r.permits cls = true →
            (r.hop = .drop → s.route from_ cls p = s.dropPacket cls) ∧
            (r.hop = .guestPort → s.route from_ cls p = s.deliverGuest p) ∧
            (∀ sr : SetupRecord, r.hop = .tillLines → s.sc.page = some sr →
              (∀ k : TillNo, p.dst = sr.tillNet.start + BitVec.ofNat 32 (k.val + 1) → sr.enabled[k] = true →
                s.route from_ cls p = { s with out := s.out ++ [.tillData k p] }) ∧
              ((∀ k : TillNo, p.dst = sr.tillNet.start + BitVec.ofNat 32 (k.val + 1) → sr.enabled[k] = false) →
                s.route from_ cls p = s.dropPacket cls)) ∧
            (∀ n : Station, r.hop = .trunkStation n →
              (from_ = .relay ∨ s.tp.peers[n].state = .absent → s.route from_ cls p = s.dropPacket cls) ∧
              (from_ ≠ .relay → s.tp.peers[n].state ≠ .absent → s.route from_ cls p = s.relayTo n cls p)) ∧
            (r.hop = .uplink ∨ r.hop = .trunkCarrier →
              (s.judge = none → s.route from_ cls p = { s with fu := { s.fu with noCarrier := bump s.fu.noCarrier } }) ∧
              (s.judge = some s.stn → from_ = .uplink → s.route from_ cls p = s.dropPacket cls) ∧
              (s.judge = some s.stn → from_ ≠ .uplink → s.route from_ cls p = s.enqueueUplink cls p) ∧
              (∀ c : Station, s.judge = some c → c ≠ s.stn → from_ = .relay →
                s.route from_ cls p = { s with fu := { s.fu with noCarrier := bump s.fu.noCarrier } }) ∧
              (∀ c : Station, s.judge = some c → c ≠ s.stn → from_ ≠ .relay →
                s.route from_ cls p = s.relayTo c cls p)))) ∧
      s.dropPacket .till = { s with fu := { s.fu with droppedTill := bump s.fu.droppedTill } } ∧
      s.dropPacket .office = { s with fu := { s.fu with droppedOffice := bump s.fu.droppedOffice } } ∧
      s.dropPacket .guest = { s with fu := { s.fu with guestDropped := bump s.fu.guestDropped } })

/-- TILL_DATA_PACKET on an enabled line and UPLINK_PACKET at a cabled station with its link up are routed by their
origin class, an uplink packet's being OFFICE for a source in the office network and GUEST otherwise; a packet to
the station address carries a message of head office; off an enabled line a till packet is dropped and counted, and
without the uplink nothing is received. Model's readings: log 24. -/
def Obligations.PacketsEnterByTheirPort : Prop :=
  ∀ (p : Packet) (s : State),
    (∀ k : TillNo,
      (s.lineEnabled k = true ↔ ∃ r : SetupRecord, s.sc.page = some r ∧ r.enabled[k] = true) ∧
      (s.lineEnabled k = true → exec (.tillDataPacket k p) s = .next (s.route .till .till p)) ∧
      (s.lineEnabled k = false →
        exec (.tillDataPacket k p) s = .next { s with fu := { s.fu with droppedTill := bump s.fu.droppedTill } })) ∧
    (s.sc.page = none ∨ s.linkCounts = false → exec (.uplinkPacket p) s = .next s) ∧
    ∀ (r : SetupRecord) (cls : OriginClass), s.sc.page = some r → s.linkCounts = true →
      cls = (if r.officeNet.covers p.src then .office else .guest) →
      (p.len < 20 ∨ 1500 < p.len → exec (.uplinkPacket p) s = .next (s.dropPacket cls)) ∧
      (20 ≤ p.len → p.len ≤ 1500 →
        (p.dst ≠ r.stationAddr → exec (.uplinkPacket p) s = .next (s.route .uplink cls p)) ∧
        (p.dst = r.stationAddr →
          (∀ t, p.body = .night (.sessionAccept t) → exec (.uplinkPacket p) s = exec (.sessionAccept t) s) ∧
          (p.body = .night .sessionEnd → exec (.uplinkPacket p) s = exec .sessionEnd s) ∧
          (∀ t tag b o, p.body = .night (.order t tag b o) →
            exec (.uplinkPacket p) s = .next (s.relayOrder t tag b o)) ∧
          (∀ t tag b i n, p.body = .night (.read t tag b i n) →
            exec (.uplinkPacket p) s = exec (.headOfficeRead t tag b i n) s) ∧
          (∀ t first n, p.body = .night (.ackJournal t first n) →
            exec (.uplinkPacket p) s = exec (.headOfficeBlockAck t (.journal first n)) s) ∧
          (∀ t n, p.body = .night (.ackActivity t n) →
            exec (.uplinkPacket p) s = exec (.headOfficeBlockAck t (.activity n)) s)))

/-- A packet relayed to a station: the fewest parts of at most 500 bytes, in order under one relay number, the one
before its rise for that packet, which rises by 1 and returns to 0 after 255; with room for them all, they join the
queue of the packet's class. A refused part, the first or a later one, ends it, the parts before it staying in the
queue: a TILL packet is dropped and counted, a GUEST one is counted by the trunk port, or out of ACTIVE here, and an
OFFICE one is kept pending from that part on, the refusal on record, unless 8 are. RELAY: a packet of one part is routed
at once; part 1 of more takes a free reassembly entry for 20 ms, or the one its source and tag hold, whose partial
packet is dropped by its own class; each part expected next adds its bytes, and the last one routes the packet of part
1's addresses and the bytes of all; a part that does not fit the sequence, by its number or its part count, or finds no
entry, drops its packet, by the class it carries. REASSEMBLY_TIMER_EXPIRY drops it too. Each packet is counted once: a
drop is remembered by source, tag, part count and last part seen, a later part of it is not counted, and a part 1 of
that source and tag begins a new packet. Model's readings: logs 17, 23, 61, 63, 72, 76 and 77. -/
def Obligations.RelaysAreFormedAndReassembled : Prop :=
  (∀ (n : Station) (cls : OriginClass) (p : Packet) (s u : State),
      p.len ≤ 1500 → u = { s with fu := { s.fu with relayNo := (s.fu.relayNo + 1) % 256 } } →
      p.len ≤ 500 * p.relayParts ∧ (∀ m, 1 ≤ m → p.len ≤ 500 * m → p.relayParts ≤ m) ∧ 1 ≤ p.relayParts ∧
      (s.tp.trunk = .active → cls = .till → s.tp.qB.length + p.relayParts ≤ 16 →
        s.relayTo n cls p = { u with tp := { s.tp with
          qB := s.tp.qB ++ (List.range p.relayParts).map fun i => relayFrame n s.fu.relayNo cls p (i + 1) } }) ∧
      (s.tp.trunk = .active → cls ≠ .till → s.tp.qC.length + p.relayParts ≤ 32 →
        s.relayTo n cls p = { u with tp := { s.tp with
          qC := s.tp.qC ++ (List.range p.relayParts).map fun i => relayFrame n s.fu.relayNo cls p (i + 1) } }) ∧
      (s.tp.trunk = .active → cls = .till → 16 < s.tp.qB.length + p.relayParts →
        s.relayTo n cls p = State.dropPacket .till { u with tp := { s.tp with
          qB := s.tp.qB ++ (List.range (16 - s.tp.qB.length)).map fun i => relayFrame n s.fu.relayNo cls p (i + 1) } }) ∧
      (∀ placed : List Frame, s.tp.trunk = .active → 32 < s.tp.qC.length + p.relayParts →
        placed = (List.range (32 - s.tp.qC.length)).map (fun i => relayFrame n s.fu.relayNo cls p (i + 1)) →
        (cls = .guest → s.relayTo n cls p = { u with tp := { s.tp with
          qC := s.tp.qC ++ placed, guestDropped := bump s.tp.guestDropped } }) ∧
        (cls = .office → s.fu.officePending.length < 8 →
          s.relayTo n cls p = { u with
            fu := { u.fu with officePending := s.fu.officePending ++
              [{ packet := p, dest := n, tag := s.fu.relayNo, next := 32 - s.tp.qC.length + 1 }] }
            tp := { s.tp with
              qC := s.tp.qC ++ placed
              recordC := s.tp.recordC ++ [relayFrame n s.fu.relayNo .office p (32 - s.tp.qC.length + 1)] } }) ∧
        (cls = .office → 8 ≤ s.fu.officePending.length →
          s.relayTo n cls p = State.dropPacket .office { u with tp := { s.tp with qC := s.tp.qC ++ placed } })) ∧
      (s.tp.trunk ≠ .active → cls = .till → s.relayTo n cls p = u.dropPacket .till) ∧
      (s.tp.trunk ≠ .active → cls = .guest → s.relayTo n cls p = u.dropPacket .guest) ∧
      (s.tp.trunk ≠ .active → cls = .office →
        (s.fu.officePending.length < 8 →
          s.relayTo n cls p = { u with
            fu := { u.fu with
              officePending := s.fu.officePending ++ [{ packet := p, dest := n, tag := s.fu.relayNo, next := 1 }] }
            tp := { s.tp with recordC := s.tp.recordC ++ [relayFrame n s.fu.relayNo .office p 1] } }) ∧
        (8 ≤ s.fu.officePending.length → s.relayTo n cls p = u.dropPacket .office))) ∧
  (∀ (src : Station) (tag : Nat) (p : RelayPart) (s u : State) (others : List RelayMark) (marked : Nat → Nat → State → State)
      (taken : Reasm), src ≠ s.stn →
      s.tp.trunk = .active ∨ s.tp.trunk = .listening →
      others = s.fu.relayDropped[src].filter (fun m => decide (m.tag ≠ tag)) →
      u = { s.heard with fu := { s.fu with relayDropped := s.fu.relayDropped.set src.1 others } } →
      (∀ n last v, marked n last v = { v with fu := { v.fu with
        relayDropped := s.fu.relayDropped.set src.1 (others ++ [{ tag := tag, n := n, last := last }]) } }) →
      taken = { src := src, tag := tag, origin := p.origin, n := p.n, next := 2, packet := { p.packet with len := p.bytes }, ms := 20 } →
      (p.k = 1 → p.n = 1 → exec (.relay src tag p) s = .next (u.route .relay p.origin { p.packet with len := p.bytes })) ∧
      (p.k = 1 → 2 ≤ p.n → p.n ≤ 3 → s.fu.reasmOf src tag = none →
        (∀ i : Fin 8, s.fu.reasm[i] = none → (∀ j : Fin 8, j < i → s.fu.reasm[j] ≠ none) →
          exec (.relay src tag p) s = .next { u with fu := { u.fu with reasm := s.fu.reasm.set i.1 (some taken) } }) ∧
        ((∀ i : Fin 8, s.fu.reasm[i] ≠ none) →
          exec (.relay src tag p) s = .next (marked p.n 1 (s.heard.dropPacket p.origin)))) ∧
      (∀ (i : Fin 8) (e : Reasm) (v : State), p.k = 1 → 2 ≤ p.n → p.n ≤ 3 → s.fu.reasmOf src tag = some i →
        s.fu.reasm[i] = some e → v = u.dropPacket e.origin →
        exec (.relay src tag p) s = .next { v with fu := { v.fu with reasm := s.fu.reasm.set i.1 (some taken) } }) ∧
      (∀ (i : Fin 8) (e : Reasm) (grown : Packet), 2 ≤ p.k → s.fu.reasmOf src tag = some i → s.fu.reasm[i] = some e →
        grown = { e.packet with
          len := e.packet.len + p.bytes
          body := if e.packet.body = p.packet.body then e.packet.body
            else Config.joinedBody e.packet.body p.packet.body } →
        (p.k = e.next → p.n = e.n → p.k < p.n →
          exec (.relay src tag p) s = .next { s.heard with fu := { s.fu with reasm := (s.fu.reasm.set i.1
            (some { e with next := e.next + 1, packet := grown })) } }) ∧
        (p.k = e.next → p.n = e.n → p.n ≤ p.k →
          exec (.relay src tag p) s =
            .next (State.route .relay e.origin grown
              { s.heard with fu := { s.fu with reasm := s.fu.reasm.set i.1 none } })) ∧
        (p.k ≠ e.next ∨ p.n ≠ e.n →
          exec (.relay src tag p) s =
            .next (marked p.n p.k (State.dropPacket p.origin
              { s.heard with fu := { s.fu with reasm := s.fu.reasm.set i.1 none } })))) ∧
      (2 ≤ p.k → s.fu.reasmOf src tag = none →
        ((∃ m ∈ s.fu.relayDropped[src], m.tag = tag ∧ m.n = p.n ∧ m.last < p.k) →
          exec (.relay src tag p) s = .next (marked p.n p.k s.heard)) ∧
        ((∀ m ∈ s.fu.relayDropped[src], m.tag ≠ tag ∨ m.n ≠ p.n ∨ p.k ≤ m.last) →
          exec (.relay src tag p) s = .next (marked p.n p.k (s.heard.dropPacket p.origin))))) ∧
  (∀ (i : Fin 8) (s : State),
      (s.fu.reasm[i] = none → exec (.reassemblyTimerExpiry i) s = .next s) ∧
      ∀ (e : Reasm) (v : State), s.fu.reasm[i] = some e → v = s.dropPacket e.origin →
        exec (.reassemblyTimerExpiry i) s = .next { v with fu := { v.fu with
          reasm := s.fu.reasm.set i.1 none
          relayDropped := (s.fu.relayDropped.set e.src.1
            (s.fu.relayDropped[e.src].filter (fun m => decide (m.tag ≠ e.tag)) ++
              [{ tag := e.tag, n := e.n, last := e.next - 1 }])) } }) ∧
  (∀ (src : Station) (tag : Nat) (f : Forwarding),
      (f.reasmOf src tag = none ↔ ∀ (i : Fin 8) (e : Reasm), f.reasm[i] = some e → e.src ≠ src ∨ e.tag ≠ tag) ∧
      ∀ i : Fin 8, f.reasmOf src tag = some i →
        ∃ e, f.reasm[i] = some e ∧ e.src = src ∧ e.tag = tag)

/-- The uplink port. UPLINK_FRAME_END frees the port, which starts the next frame by class and credit (R168); in
CLOSING the session ends by day once nothing for head office is left (R193). UPLINK_LINK_CHANGE to up starts a waiting
frame; to down, or at a station whose uplink role is not CABLED, it empties the queues and counts each packet, loses
the frame on the wire and leaves no credit; the carrier is then judged again. GUEST_CREDIT_WINDOW sets the credit to
the share of what the link carries in 0.1 s, at most 50 percent, and to 0 while the link counts as down, the station is
UNSET or a session is OPEN or CLOSING; the new credit starts a guest frame that waits (R169). A packet that joins the
port's queues, of 32 TILL, 64 OFFICE and 64 GUEST packets, is dropped and counted where its own is full, and may start
at once (R167). Model's readings: log 24. -/
def Obligations.UplinkSendsByClassAndCredit : Prop :=
  ∀ s : State,
    (s.linkCounts = true ↔ s.fu.linkUp = true ∧ ∃ r, s.sc.page = some r ∧ r.uplink = .yes) ∧
    (∃ t, State.PortStarts { s with fu := { s.fu with upSending := none } } t ∧
      (s.nlc.session ≠ .closing → exec .uplinkFrameEnd s = .next t) ∧
      (s.nlc.session = .closing → t.fu.upOffice = [] → (∀ e ∈ s.nlc.sendList, e.msg.boundForOffice = false) →
        exec .uplinkFrameEnd s = .next { t with nlc := { t.nlc with session := .day, callMs := 0 } }) ∧
      (s.nlc.session = .closing → t.fu.upOffice ≠ [] ∨ (∃ e ∈ s.nlc.sendList, e.msg.boundForOffice = true) →
        exec .uplinkFrameEnd s = .next t)) ∧
    (∀ rate : LinkRate,
      (∀ up : Bool, up = false ∨ (∀ r, s.sc.page = some r → r.uplink ≠ .yes) →
        exec (.uplinkLinkChange up rate) s =
          .next (State.rejudge { s with fu := { s.fu with
            linkUp := up, rate := if up then rate else s.fu.rate
            upTill := [], upOffice := [], upGuest := [], upSending := none, credit := 0
            droppedTill := bumpBy s.fu.droppedTill s.fu.upTill.length
            droppedOffice := bumpBy s.fu.droppedOffice s.fu.upOffice.length
            guestDropped := bumpBy s.fu.guestDropped s.fu.upGuest.length } })) ∧
      ∀ r : SetupRecord, s.sc.page = some r → r.uplink = .yes →
        ∃ t, State.PortStarts { s with fu := { s.fu with linkUp := true, rate := rate } } t ∧
          exec (.uplinkLinkChange true rate) s = .next t.rejudge) ∧
    (∃ (credit : Int) (t : State),
      State.PortStarts { s with fu := { s.fu with windowMs := 100, credit := credit } } t ∧
      exec .guestCreditWindow s = .next t ∧
      (s.linkCounts = false ∨ s.nlc.session = .opened ∨ s.nlc.session = .closing ∨ s.sc.page = none → credit = 0) ∧
      ∀ (r : SetupRecord) (w : Nat), s.linkCounts = true → s.nlc.session ≠ .opened → s.nlc.session ≠ .closing →
        s.sc.page = some r →
        w = (match s.fu.rate with | .mbit10 => 125000 | .mbit100 => 1250000 | .mbit1000 => 12500000) →
        credit = (w * min r.guestShare 50 / 100 : Nat)) ∧
    ∀ p : Packet,
      (s.fu.upTill.length < 32 →
        State.PortStarts { s with fu := { s.fu with upTill := s.fu.upTill ++ [p] } } (s.enqueueUplink .till p)) ∧
      (32 ≤ s.fu.upTill.length → s.enqueueUplink .till p = s.dropPacket .till) ∧
      (s.fu.upOffice.length < 64 →
        State.PortStarts { s with fu := { s.fu with upOffice := s.fu.upOffice ++ [p] } } (s.enqueueUplink .office p)) ∧
      (64 ≤ s.fu.upOffice.length → s.enqueueUplink .office p = s.dropPacket .office) ∧
      (s.fu.upGuest.length < 64 →
        State.PortStarts { s with fu := { s.fu with upGuest := s.fu.upGuest ++ [p] } } (s.enqueueUplink .guest p)) ∧
      (64 ≤ s.fu.upGuest.length → s.enqueueUplink .guest p = s.dropPacket .guest)


/-! ## Chapter 10: guest wireless -/

/-- The guest air port: a message is sent at once while none is being sent, and otherwise waits behind the others; a
DATA formed while 32 wait is discarded and counted. GUEST_AIR_PORT_MESSAGE_SENT sends the next one. JOIN and LEAVE. With
guest service off a JOIN is told NO-SERVICE and a LEAVE ignored. A held client is ACCEPTED again and told its tier; a
new one takes the lowest FREE entry, or that of the OPEN client longest without activity, which is told EVICTED; with
neither it is told DENY FULL. A LEAVE frees the client's entry. An OPEN or CHECKING client held is told OPENED, a
BLOCKED one BLOCKED, and an ADMITTED one its minutes left, rounded up (R173). Model's readings: logs 25 and 70. -/
def Obligations.ClientsJoinAndAreTold : Prop :=
  (∀ e : ClientEntry,
      (e.state = .opened ∨ e.state = .checking → e.told = .notice e.addr .opened) ∧
      (e.state = .blocked → e.told = .notice e.addr .blocked) ∧
      (∀ minutes : Nat, e.state = .admitted → e.admissionMs ≤ 60000 * minutes → 60000 * minutes < e.admissionMs + 60000 →
        e.told = .codeResult e.addr (.admitted minutes))) ∧
  (∀ (m : AirMsg) (s : State),
      (s.gu.airSending = none → s.air m = { s with gu := { s.gu with airSending := some m }, out := s.out ++ [.air m] }) ∧
      (∀ x, s.gu.airSending = some x →
        ((∀ p, m ≠ .data p) ∨ (s.gu.airQueue.filter AirMsg.isData).length < 32 →
          s.air m = { s with gu := { s.gu with airQueue := s.gu.airQueue ++ [m] } }) ∧
        (∀ p, m = .data p → 32 ≤ (s.gu.airQueue.filter AirMsg.isData).length →
          s.air m = { s with gu := { s.gu with guestDropped := bump s.gu.guestDropped } })) ∧
      (s.gu.airQueue = [] →
        exec .guestAirPortMessageSent s = .next { s with gu := { s.gu with airSending := none } }) ∧
      ∀ q, s.gu.airQueue = m :: q →
        exec .guestAirPortMessageSent s =
          .next { s with gu := { s.gu with airSending := some m, airQueue := q }, out := s.out ++ [.air m] }) ∧
  (∀ (a : ClientAddr) (s : State) (taken : Fin 128 → ClientEntry),
      (∀ i, taken i = { state := .opened, addr := a, parity := s.gu.clients[i].parity, lastActivity := s.now }) →
      (s.guestOn = false →
        exec (.join a) s = .next (s.air (.joinResult a .noService)) ∧ exec (.leave a) s = .next s) ∧
      (∀ i : Fin 128, s.guestOn = true → s.gu.find a = some i →
        exec (.join a) s =
          .next (State.air s.gu.clients[i].told (State.air (.joinResult a .accepted)
            { s with gu := { s.gu with
              clients := s.gu.clients.set i.1 { s.gu.clients[i] with lastActivity := s.now } } })) ∧
        exec (.leave a) s =
          .next { s with gu := { s.gu with clients := s.gu.clients.set i.1 { parity := s.gu.clients[i].parity } } }) ∧
      (s.guestOn = true → s.gu.find a = none →
        exec (.leave a) s = .next s ∧
        (∀ i : Fin 128, s.gu.clients[i].state = .free → (∀ j : Fin 128, j < i → s.gu.clients[j].state ≠ .free) →
          exec (.join a) s =
            .next (State.air (.joinResult a .accepted)
              { s with gu := { s.gu with clients := s.gu.clients.set i.1 (taken i) } })) ∧
        ((∀ i : Fin 128, s.gu.clients[i].state ≠ .free) →
          ((∀ i : Fin 128, s.gu.clients[i].state ≠ .opened) →
            exec (.join a) s = .next (s.air (.joinResult a .denyFull))) ∧
          ∀ (i : Fin 128) (u : State), s.gu.clients[i].state = .opened →
            (∀ j : Fin 128, s.gu.clients[j].state = .opened →
              s.gu.clients[i].lastActivity < s.gu.clients[j].lastActivity ∨
                s.gu.clients[i].lastActivity = s.gu.clients[j].lastActivity ∧ i ≤ j) →
            u = s.air (.notice s.gu.clients[i].addr .evicted) →
            exec (.join a) s =
              .next (State.air (.joinResult a .accepted)
                { u with gu := { u.gu with clients := s.gu.clients.set i.1 (taken i) } }))))

/-- GUEST_DATA is metered: with guest service off, from an unknown or BLOCKED client, or past 800 bytes in a rate window
of an OPEN or CHECKING client, the packet is dropped and counted; otherwise it is counted for the client and routed.
GUEST_RATE_WINDOW clears every client's window bytes. Times that run out. ADMISSION_EXPIRY returns an ADMITTED client to
the open tier without its code, BLOCK_EXPIRY a BLOCKED one with no strikes, each told OPENED; CODE_EXPIRY takes the code
off the list. A strike raises a client's count, and the sixteenth blocks it for 600 s without code, check or admission.
A packet for a guest is delivered to the lowest-numbered entry of its network address, as DATA on the guest air port,
and counted in that client's total bytes; with guest service off, for no client or a BLOCKED one, or with 32 DATA
waiting it is dropped and counted (R176, R171). Model's readings: logs 2, 25 and 70. -/
def Obligations.GuestTrafficIsMetered : Prop :=
  (∀ (p : Packet) (s dropped : State),
      dropped = { s with gu := { s.gu with guestDropped := bump s.gu.guestDropped } } →
      (s.guestOn = false → s.deliverGuest p = dropped) ∧
      (s.guestOn = true →
        ((∀ i : Fin 128, s.gu.clients[i].state = .free ∨ s.gu.clients[i].net ≠ some p.dst) →
          s.deliverGuest p = dropped) ∧
        ∀ (i : Fin 128) (e : ClientEntry), e = s.gu.clients[i] → e.state ≠ .free → e.net = some p.dst →
          (∀ j : Fin 128, j < i → s.gu.clients[j].state = .free ∨ s.gu.clients[j].net ≠ some p.dst) →
          (e.state = .blocked ∨ s.gu.airSending ≠ none ∧ 32 ≤ (s.gu.airQueue.filter AirMsg.isData).length →
            s.deliverGuest p = dropped) ∧
          (e.state ≠ .blocked → s.gu.airSending = none ∨ (s.gu.airQueue.filter AirMsg.isData).length < 32 →
            s.deliverGuest p = State.air (.data p) { s with gu := { s.gu with
              clients := s.gu.clients.set i.1 { e with totalBytes := bumpBy e.totalBytes p.len } } }))) ∧
  (∀ (a : ClientAddr) (p : Packet) (s : State),
      (s.guestOn = false ∨ s.gu.find a = none →
        exec (.guestData a p) s = .next { s with gu := { s.gu with guestDropped := bump s.gu.guestDropped } }) ∧
      (∀ (i : Fin 128) (e : ClientEntry), s.guestOn = true → s.gu.find a = some i → e = s.gu.clients[i] →
        (e.state = .admitted →
          exec (.guestData a p) s =
            .next (State.route (.guestAir a) .guest p { s with gu := { s.gu with clients := (s.gu.clients.set i.1
              { e with totalBytes := bumpBy e.totalBytes p.len, net := some p.src, lastActivity := s.now }) } })) ∧
        (e.state = .opened ∨ e.state = .checking → e.windowBytes + p.len ≤ 800 →
          exec (.guestData a p) s =
            .next (State.route (.guestAir a) .guest p { s with gu := { s.gu with clients := (s.gu.clients.set i.1
              { e with totalBytes := bumpBy e.totalBytes p.len, net := some p.src, lastActivity := s.now
                       windowBytes := e.windowBytes + p.len }) } })) ∧
        (e.state = .blocked ∨ (e.state = .opened ∨ e.state = .checking) ∧ 800 < e.windowBytes + p.len →
          exec (.guestData a p) s =
            .next { s with gu := { s.gu with
              clients := s.gu.clients.set i.1 { e with lastActivity := s.now }
              guestDropped := bump s.gu.guestDropped } })) ∧
      ∃ t, exec .guestRateWindow s = .next t ∧
        (∀ i : Fin 128, t.gu.clients[i] = { s.gu.clients[i] with windowBytes := 0 }) ∧
        t = { s with gu := { s.gu with clients := t.gu.clients, rateMs := 100 } }) ∧
  (∀ (i : Fin 128) (s : State) (e : ClientEntry), e = s.gu.clients[i] →
      (e.state = .admitted →
        exec (.admissionExpiry i) s =
          .next (State.air (.notice e.addr .opened) { s with gu := { s.gu with clients := (s.gu.clients.set i.1
            { e with state := .opened, code := none, check := none, admissionMs := 0, windowBytes := 0 }) } })) ∧
      (e.state ≠ .admitted → exec (.admissionExpiry i) s = .next s) ∧
      (e.state = .blocked →
        exec (.blockExpiry i) s =
          .next (State.air (.notice e.addr .opened) { s with gu := { s.gu with clients := (s.gu.clients.set i.1
            { e with state := .opened, blockMs := 0, strikes := 0, windowBytes := 0 }) } })) ∧
      (e.state ≠ .blocked → exec (.blockExpiry i) s = .next s) ∧
      (∀ n : Nat, exec (.codeExpiry n) s =
        .next { s with gu := { s.gu with codes := s.gu.codes.filter fun c => c.serial ≠ n } }) ∧
      ∀ a : ClientAddr,
        (s.gu.find a = none → s.strike a = s) ∧
        (s.gu.find a = some i →
          (e.state = .blocked → s.strike a = s) ∧
          (e.state ≠ .blocked → e.strikes < 15 →
            s.strike a = { s with gu := { s.gu with
              clients := s.gu.clients.set i.1 { e with strikes := e.strikes + 1 } } }) ∧
          (e.state ≠ .blocked → 15 ≤ e.strikes →
            s.strike a = State.air (.notice a .blocked) { s with gu := { s.gu with clients := (s.gu.clients.set i.1
              { e with state := .blocked, blockMs := 600000, admissionMs := 0, check := none, code := none
                       strikes := 16 }) } })))

/-- CODE: an unknown client is NOT-JOINED; one CHECKING, ADMITTED or BLOCKED is told so, with the minutes left rounded
up; six digits of an issuer 0 to 15 are a code and anything else MALFORMED. The own code admits for 120 minutes and uses
it, or is denied with its reason; another station's is asked of its issuer for 50 ms, or told RETRY where that station
is ABSENT or the frame is refused. A code is issued at a close whose total reaches the threshold of setup, with the
first serial not listed from the serial counter on, for 4 hours; at 256 codes none is issued and that is counted; a
threshold of 0 issues none. Model's readings: log 71 (which characters are digits). -/
def Obligations.CodesAreIssuedAndEntered : Prop :=
  (∀ (a : ClientAddr) (chars : List Nat) (s : State),
      (s.guestOn = false → exec (.code a chars) s = .next s) ∧
      (s.guestOn = true → s.gu.find a = none →
        exec (.code a chars) s = .next (s.air (.codeResult a (.deny .notJoined)))) ∧
      ∀ (i : Fin 128) (e : ClientEntry) (u : State), s.guestOn = true → s.gu.find a = some i →
        e = { s.gu.clients[i] with lastActivity := s.now } →
        u = { s with gu := { s.gu with clients := s.gu.clients.set i.1 e } } →
        (e.state = .checking → exec (.code a chars) s = .next (u.air (.codeResult a .checking))) ∧
        (e.state = .admitted →
          exec (.code a chars) s = .next (u.air (.codeResult a (.admitted ((e.admissionMs + 59999) / 60000))))) ∧
        (e.state = .blocked →
          exec (.code a chars) s = .next (u.air (.codeResult a (.blocked ((e.blockMs + 59999) / 60000))))) ∧
        (e.state = .opened →
          ((∀ d1 d2 d3 d4 d5 d6 : Nat, d1 ≤ 9 → d2 ≤ 9 → d3 ≤ 9 → d4 ≤ 9 → d5 ≤ 9 → d6 ≤ 9 → d1 * 10 + d2 ≤ 15 →
              chars ≠ [48 + d1, 48 + d2, 48 + d3, 48 + d4, 48 + d5, 48 + d6]) →
            exec (.code a chars) s = .next (u.air (.codeResult a (.deny .malformed)))) ∧
          ∀ (d1 d2 d3 d4 d5 d6 : Nat) (c : GuestCode) (x : ClientEntry), d1 ≤ 9 → d2 ≤ 9 → d3 ≤ 9 → d4 ≤ 9 → d5 ≤ 9 →
            d6 ≤ 9 → c.issuer.val = d1 * 10 + d2 → c.serial = d3 * 1000 + d4 * 100 + d5 * 10 + d6 →
            chars = [48 + d1, 48 + d2, 48 + d3, 48 + d4, 48 + d5, 48 + d6] →
            x = { e with parity := !e.parity } →
            (c.issuer = s.stn → s.gu.judgeCode c.serial = .ok →
              exec (.code a chars) s =
                .next (State.air (.codeResult e.addr (.admitted 120)) { s with gu := { s.gu.useCode c.serial with
                  clients := (s.gu.clients.set i.1
                    { x with state := .admitted, code := some c, admissionMs := 7200000, check := none }) } })) ∧
            (∀ why, c.issuer = s.stn → s.gu.judgeCode c.serial = .deny why →
              exec (.code a chars) s =
                .next (State.air (.codeResult e.addr (.deny why)) { s with gu := { s.gu with
                  clients := s.gu.clients.set i.1 { x with state := .opened, code := none, check := none } } })) ∧
            (c.issuer ≠ s.stn → s.tp.peers[c.issuer].state ≠ .absent → s.tp.trunk = .active → s.tp.qB.length < 16 →
              exec (.code a chars) s =
                .next { s with
                  tp := { s.tp with
                    qB := s.tp.qB ++ [frameTo c.issuer (2 * i.val + x.parity.toNat) (.codeCheck .check c)] }
                  gu := { s.gu with clients := (s.gu.clients.set i.1 { x with
                    state := .checking, code := some c
                    check := some { issuer := c.issuer, tag := 2 * i.val + x.parity.toNat, ms := 50 } }) } }) ∧
            (c.issuer ≠ s.stn →
              s.tp.peers[c.issuer].state = .absent ∨ s.tp.trunk ≠ .active ∨ 16 ≤ s.tp.qB.length →
              exec (.code a chars) s =
                .next (State.air (.codeResult e.addr .retry) { s with gu := { s.gu with
                  clients := s.gu.clients.set i.1 { x with state := .opened, code := none, check := none } } })))) ∧
  (∀ (g : GuestUnit) (threshold : Nat) (total : Int) (time : Option Time) (till : TillNo),
      (threshold = 0 ∨ total < threshold → g.issue threshold total time till = (none, g)) ∧
      (threshold ≠ 0 → threshold ≤ total →
        (256 ≤ g.codes.length →
          g.issue threshold total time till = (none, { g with notIssued := bump g.notIssued })) ∧
        (g.codes.length < 256 →
          ∃ n k, g.issue threshold total time till =
              (some n, { g with
                codes := g.codes ++ [{ serial := n, uses := 0, validMs := 14400000, issued := time, till := till }]
                serial := (n + 1) % 10000 }) ∧
            n = (g.serial + k) % 10000 ∧ n ≤ 9999 ∧ (∀ c ∈ g.codes, c.serial ≠ n) ∧
            ∀ j, j < k → ∃ c ∈ g.codes, c.serial = (g.serial + j) % 10000)))

/-- The issuer's side and the asker's. An answer is for the CHECKING client that holds its code and whose check carries
its tag and its source as the issuer. CODE_CHECK is answered OK while the code is listed with fewer than 2 uses,
and uses it where the answer is placed, else USED or UNKNOWN; CODE_CHECK_RETURN gives a use back. CODE_ANSWER admits
the client whose check it matches, or ends that check with its reason; one that matches none and says OK hands its
use back. CODE_CHECK_TIMER_EXPIRY ends the check with RETRY. Model's readings: logs 2, 15 and 34. -/
def Obligations.ChecksAreAnsweredAndTaken : Prop :=
  ∀ (src : Station) (tag : Nat) (c : GuestCode) (s : State) (its : Fin 128 → Prop), src ≠ s.stn →
    s.tp.trunk = .active →
    (∀ i : Fin 128, its i ↔ s.gu.clients[i].state = .checking ∧ s.gu.clients[i].code = some c ∧
      ∃ x, s.gu.clients[i].check = some x ∧ x.tag = tag ∧ x.issuer = src) →
    (s.tp.qB.length < 16 →
      ((∀ x ∈ s.gu.codes, x.serial ≠ c.serial) →
        exec (.codeCheck src tag c) s = .next { s.heard with tp := { s.heard.tp with
          qB := s.tp.qB ++ [frameTo src tag (.codeAnswer c (.deny .unknown))] } }) ∧
      (∀ (x : CodeEntry) (l r : List CodeEntry), s.gu.codes = l ++ x :: r → x.serial = c.serial →
        (∀ y ∈ l ++ r, y.serial ≠ c.serial) →
        (2 ≤ x.uses →
          exec (.codeCheck src tag c) s = .next { s.heard with tp := { s.heard.tp with
            qB := s.tp.qB ++ [frameTo src tag (.codeAnswer c (.deny .used))] } }) ∧
        (x.uses < 2 →
          exec (.codeCheck src tag c) s = .next { s.heard with
            tp := { s.heard.tp with qB := s.tp.qB ++ [frameTo src tag (.codeAnswer c .ok)] }
            gu := { s.gu with codes := l ++ { x with uses := x.uses + 1 } :: r } }))) ∧
    (16 ≤ s.tp.qB.length → exec (.codeCheck src tag c) s = .next s.heard) ∧
    exec (.codeCheckReturn src tag c) s = .next { s.heard with gu := { s.gu with
      codes := s.gu.codes.map fun x => if x.serial = c.serial then { x with uses := x.uses - 1 } else x } } ∧
    (∀ (i : Fin 128) (e : ClientEntry), its i → (∀ j : Fin 128, j < i → ¬its j) → e = s.gu.clients[i] →
      exec (.codeAnswer src tag c .ok) s =
        .next (State.air (.codeResult e.addr (.admitted 120)) { s.heard with gu := { s.gu with
          clients := s.gu.clients.set i.1 { e with state := .admitted, admissionMs := 7200000, check := none } } }) ∧
      ∀ why, exec (.codeAnswer src tag c (.deny why)) s =
        .next (State.air (.codeResult e.addr (.deny why)) { s.heard with gu := { s.gu with
          clients := s.gu.clients.set i.1 { e with state := .opened, code := none, check := none } } })) ∧
    ((∀ i : Fin 128, ¬its i) →
      (∀ why, exec (.codeAnswer src tag c (.deny why)) s = .next s.heard) ∧
      (s.tp.qB.length < 16 → exec (.codeAnswer src tag c .ok) s = .next { s.heard with
        tp := { s.heard.tp with
          qB := s.tp.qB ++ [frameTo c.issuer (Config.openTag s.freeIdx % 256) (.codeCheck .giveBack c)] }
        freeIdx := s.freeIdx + 1 }) ∧
      (16 ≤ s.tp.qB.length → exec (.codeAnswer src tag c .ok) s = .next { s.heard with
        gu := { s.gu with notReturned := bump s.gu.notReturned }, freeIdx := s.freeIdx + 1 })) ∧
    (∀ (i : Fin 128) (e : ClientEntry), e = s.gu.clients[i] →
      (e.state = .checking → e.check ≠ none →
        exec (.codeCheckTimerExpiry i) s =
          .next (State.air (.codeResult e.addr .retry) { s with gu := { s.gu with
            clients := s.gu.clients.set i.1 { e with state := .opened, code := none, check := none } } })) ∧
      (e.state ≠ .checking ∨ e.check = none → exec (.codeCheckTimerExpiry i) s = .next s))


/-! ## Chapter 11: the night link -/

/-- The carrier judged is the lowest-numbered PRESENT station that is cabled with its uplink up; the own station is
judged by its setup and its port. At each judgement (R187): a carrier that is no longer the judged one loses its session
at once, and its messages for head office with it (R193); the upload of a station whose carrier changed ends, its blocks
returned, and its waiting reports go to the new carrier from their first part, or, the new carrier itself, to head
office, or with none are discarded and counted (R200); then the upload begins, from IDLE, where the trunk state is
ACTIVE and the carrier's entry shows its night session, and ends where not (R197); then the call conditions are tested.
The night window runs from its start minute, included, to its end minute, not included, across midnight where the start
is above the end, and is never where they are equal; with the clock UNSET it is outside (R188). The session. At the
window's start, and at the end of a call hold, the judged carrier of a SET station that was not served in this window
calls head office for 60 s; a call not answered fails and holds for 300 s; SESSION_ACCEPT opens the session with guest
credit 0 and sets the clock; SESSION_END closes it served; leaving the window ends a call or closes the session with
SESSION END; and CLOSING ends once nothing for head office is left. Head office is called when the session is DAY, the
station SET and the judged carrier, the clock inside the window, no call hold runs and the window is not served: SESSION
OPEN goes to the office address, and the session is CALLING. A clock adoption: the clock has its new value and state,
and one that leaves UNSET on a SET station the new day mark; then the window is entered or left, a switchover that is
due is performed and a day roll that is due, in either order where both are (R205). Model's readings: logs 2, 9 (the
order of switchover and day roll), 22, 26, 31, 67, 69 and 83 (the day mark before the window). -/
def Obligations.SessionFollowsTheNight : Prop :=
  (∀ (s : State) (r : SetupRecord) (c : Time), s.sc.page = some r → s.sc.clockState ≠ .unset → s.sc.clock = some c →
      (r.winStart < r.winEnd → (s.inWindow = true ↔ 60 * r.winStart ≤ c.sec ∧ c.sec < 60 * r.winEnd)) ∧
      (r.winEnd < r.winStart → (s.inWindow = true ↔ 60 * r.winStart ≤ c.sec ∨ c.sec < 60 * r.winEnd)) ∧
      (r.winStart = r.winEnd → s.inWindow = false)) ∧
  (∀ s : State, s.sc.page = none ∨ s.sc.clockState = .unset → s.inWindow = false) ∧
  (∀ (left : State → State),
      (∀ u : State, left u =
        if u.nlc.upload = .uploading then
          { u with
            ju := { u.ju with inflight := [], readPos := u.ju.head }
            nlc := { u.nlc with
              upload := .idle, blockTimers := [], activity := [], cursor := 0
              sendList := u.nlc.sendList.filter fun e => !e.msg.isBlock } }
        else { u with nlc := { u.nlc with upload := .idle } }) →
      (∀ (s : State) (may : Prop),
        (may ↔ s.tp.trunk = .active ∧ ∃ n f, s.nlc.carrier = some n ∧ s.tp.peers[n].flags = some f ∧ f.night = true) →
        (may → s.nlc.upload = .idle →
          s.testUpload = State.opportunity { s with nlc := { s.nlc with upload := .uploading, cursor := 0 } }) ∧
        (may → s.nlc.upload ≠ .idle → s.testUpload = s) ∧ (¬may → s.testUpload = (left s).flushNight)) ∧
      ∀ s u v : State,
        (s.judge = s.nlc.carrier → s.rejudge = s.testUpload.testCall) ∧
        (s.judge ≠ s.nlc.carrier →
          u = (if s.judge = some s.stn ∨ s.nlc.session = .day then { s with nlc := { s.nlc with carrier := s.judge } }
            else { s with nlc := { s.nlc with
              carrier := s.judge, session := .day, callMs := 0
              sendList := s.nlc.sendList.filter fun e => !e.msg.boundForOffice } }) →
          v = left u →
          (∀ c : Station, s.judge = some c → c ≠ s.stn →
            s.rejudge = State.testCall (State.testUpload (State.flushNight { v with nlc := { v.nlc with
              sendList := v.nlc.sendList.map fun e => if e.msg.isReport then { e with dest := c, next := 1 } else e } }))) ∧
          (s.judge = none →
            s.rejudge = State.testCall (State.testUpload (State.flushNight { v with nlc := { v.nlc with
              sendList := v.nlc.sendList.filter fun e => !e.msg.isReport
              dropped := bumpBy v.nlc.dropped (v.nlc.sendList.filter fun e => e.msg.isReport).length } }))) ∧
          (s.judge = some s.stn →
            s.rejudge = State.testCall (State.testUpload (State.flushNight
              ((v.nlc.sendList.filter fun e => e.msg.isReport).foldl (fun x e => x.forwardOffice e.msg)
                { v with nlc := { v.nlc with sendList := v.nlc.sendList.filter fun e => !e.msg.isReport } })))))) ∧
  (∀ (s : State) (m : NightMsg),
      (s.nlc.session = .opened ∨ s.nlc.session = .closing → s.forwardOffice m = s.toOffice m) ∧
      (s.nlc.session = .day ∨ s.nlc.session = .calling →
        s.forwardOffice m = { s with nlc := { s.nlc with dropped := bump s.nlc.dropped } }) ∧
      (m.isReport = true ↔ (∃ t g r, m = .orderResult t g r) ∨ ∃ t g es, m = .records t g es) ∧
      (m.isBlock = true ↔ (∃ t f n rs, m = .journalBlock t f n rs) ∨ ∃ t n g cs, m = .activityBlock t n g cs) ∧
      (m.boundForOffice = true ↔ m.isReport = true ∨ m.isBlock = true)) ∧
  (∀ (s : State) (may : Station → Prop),
      (∀ n, may n ↔ s.tp.peers[n].state = .present ∧
        (if n = s.stn then s.fu.linkUp = true ∧ ∃ r, s.sc.page = some r ∧ r.uplink = .yes
         else ∃ f, s.tp.peers[n].flags = some f ∧ f.cabled = true ∧ f.linkUp = true)) →
      (s.judge = none ↔ ∀ n, ¬may n) ∧ ∀ n, s.judge = some n ↔ may n ∧ ∀ m : Station, m < n → ¬may m) ∧
  (∀ s : State,
      (s.inWindow = true → s.nlc.inside = false →
        exec .nightWindowEnter s =
          .next (State.testCall { s with nlc := { s.nlc with inside := true, served := false } })) ∧
      (s.inWindow = false ∨ s.nlc.inside = true → exec .nightWindowEnter s = .next s) ∧
      (s.inWindow = true ∨ s.nlc.inside = false → exec .nightWindowLeave s = .next s) ∧
      (s.inWindow = false → s.nlc.inside = true →
        (s.nlc.session = .day ∨ s.nlc.session = .closing →
          exec .nightWindowLeave s = .next { s with nlc := { s.nlc with inside := false, holdMs := none } }) ∧
        (s.nlc.session = .calling →
          exec .nightWindowLeave s =
            .next { s with nlc := { s.nlc with inside := false, holdMs := none, session := .day, callMs := 0 } }) ∧
        (s.nlc.session = .opened →
          exec .nightWindowLeave s =
            .next (State.testDrained (State.toOffice .sessionEnd
              { s with nlc := { s.nlc with inside := false, holdMs := none, session := .closing } })))) ∧
      (s.nlc.session = .calling →
        exec .callTimerExpiry s =
          .next { s with nlc := { s.nlc with
            session := .day, callMs := 0, holdMs := some 300000, callsFailed := bump s.nlc.callsFailed } }) ∧
      (s.nlc.session ≠ .calling → exec .callTimerExpiry s = .next s) ∧
      (s.nlc.holdMs ≠ none → exec .callHoldEnd s = .next (State.testCall { s with nlc := { s.nlc with holdMs := none } })) ∧
      (s.nlc.holdMs = none → exec .callHoldEnd s = .next s) ∧
      (∀ t : Time, s.nlc.session = .calling →
        exec (.sessionAccept t) s =
          .next (State.adopt t .officeSet { s with
            nlc := { s.nlc with session := .opened, callMs := 0, sessionsOpened := bump s.nlc.sessionsOpened }
            fu := { s.fu with credit := 0 } })) ∧
      (∀ t : Time, s.nlc.session ≠ .calling →
        exec (.sessionAccept t) s = .next { s with nlc := { s.nlc with dropped := bump s.nlc.dropped } }) ∧
      (s.nlc.session = .opened →
        exec .sessionEnd s =
          .next (State.testDrained { s with nlc := { s.nlc with session := .closing, served := true } })) ∧
      (s.nlc.session ≠ .opened →
        exec .sessionEnd s = .next { s with nlc := { s.nlc with dropped := bump s.nlc.dropped } }) ∧
      (s.nlc.session = .closing → s.fu.upOffice = [] → (∀ e ∈ s.nlc.sendList, e.msg.boundForOffice = false) →
        exec .sessionDrained s = .next { s with nlc := { s.nlc with session := .day, callMs := 0 } }) ∧
      (s.nlc.session ≠ .closing ∨ s.fu.upOffice ≠ [] ∨ (∃ e ∈ s.nlc.sendList, e.msg.boundForOffice = true) →
        exec .sessionDrained s = .next s)) ∧
  (∀ (s : State) (r : SetupRecord), s.sc.page = some r →
      (s.nlc.session = .day → s.nlc.carrier = some s.stn → s.inWindow = true → s.nlc.holdMs = none →
        s.nlc.served = false →
        ∃ u : State, u = s.toOffice (.sessionOpen r.store s.stn s.is.gen s.sc.dayMark) ∧
          s.testCall = { u with nlc := { u.nlc with session := .calling, callMs := 60000 } }) ∧
      (s.nlc.session ≠ .day ∨ s.nlc.carrier ≠ some s.stn ∨ s.inWindow = false ∨ s.nlc.holdMs ≠ none ∨
        s.nlc.served = true → s.testCall = s)) ∧
  (∀ (t : Time) (st : ClockState) (s u v w : State),
      u = { s with sc := { s.sc with
        clock := some t, clockState := st, clockMs := 0
        dayMark :=
          if s.sc.clockState = .unset then
            (if st = .unset then none
             else s.sc.page.map fun r => if 60 * r.winStart ≤ t.sec then (t.day : Int) else (t.day : Int) - 1)
          else s.sc.dayMark } } →
      exec .nightWindowEnter u = .next v → exec .nightWindowLeave v = .next w →
      (w.switchoverDue = none ∨ w.dayDue = none →
        ∃ x : State, exec .switchover w = .next x ∧ exec .dayRoll x = .next (s.adopt t st)) ∧
      (w.switchoverDue ≠ none → w.dayDue ≠ none →
        ∃ x y : State,
          (exec .switchover w = .next x ∧ exec .dayRoll x = .next y ∨
            exec .dayRoll w = .next x ∧ exec .switchover x = .next y) ∧
          s.adopt t st = { y with freeIdx := y.freeIdx + 1 }))

/-- OFFICE parts of another station's night message: a whole one is taken at once; part 1 of more begins an assembly and
discards one begun before, counted; the part expected next follows and the last one takes the message; another part of
its tag discards it, counted, and a part of another tag is left out. NIGHT_ASSEMBLY_TIMEOUT discards it, counted. Orders
and reads for this station are taken from the judged carrier alone and their results go back to it, a message for head
office goes on only at a station whose session is OPEN or CLOSING, and anything else is discarded and counted.
HEAD_OFFICE_READ and HEAD_OFFICE_BLOCK_ACK at the carrier in an OPEN session, a BLOCK ACK also in CLOSING: one for this
station is taken here, one for another goes to its send list, and for a station ABSENT a read is answered with no
records and an acknowledgement is discarded and counted; in any other session both are. An ORDER of head office goes the
same way, one for an ABSENT station answered NOT-REACHED. The send list takes a message unless it holds 32, and hands
the parts of all its messages in list order while there is room; the first refused goes on record, and nothing more is
handed while it is there (R194, R34). A BLOCK ACK travels as one BLOCK ACK frame, any other message as 1 to 64 OFFICE
parts. A message handed to head office is a packet from the station address to the head office address (section 11.3;
its length: log 10). What needs a recovery waits for it: the model's choice of how (log 5). Model's readings: logs 5,
10, 15, 19, 22, 26, 62, 75 (a part of the expected number and another part count discards the assembly) and 82 (a READ
is answered whatever number of RECORDS wait). -/
def Obligations.NightMessagesAreTakenAndRelayed : Prop :=
  (∀ (src : Station) (tag : Nat) (m : NightMsg) (k n : Nat) (s dropped : State), src ≠ s.stn → s.tp.trunk = .active →
      dropped = { s.heard with nlc := { s.nlc with dropped := bump s.nlc.dropped } } →
      (s.nlc.assembly[src] = none →
        (k = 1 → n = 1 → exec (.office src tag m k n) s = .next (s.heard.takeNight src m)) ∧
        (k = 1 → 2 ≤ n → n ≤ 64 →
          exec (.office src tag m k n) s = .next { s.heard with nlc := { s.nlc with assembly := (s.nlc.assembly.set src.1
            (some { msg := m, tag := tag, n := n, next := 2, ms := 1000 })) } }) ∧
        (2 ≤ k → exec (.office src tag m k n) s = .next s.heard) ∧
        exec (.nightAssemblyTimeout src) s = .next s) ∧
      ∀ a : Assembly, s.nlc.assembly[src] = some a →
        (k = 1 → n = 1 →
          exec (.office src tag m k n) s =
            .next (State.takeNight src m { dropped with nlc := { dropped.nlc with
              assembly := s.nlc.assembly.set src.1 none } })) ∧
        (k = 1 → 2 ≤ n → n ≤ 64 →
          exec (.office src tag m k n) s =
            .next { dropped with nlc := { dropped.nlc with assembly := (s.nlc.assembly.set src.1
              (some { msg := m, tag := tag, n := n, next := 2, ms := 1000 })) } }) ∧
        (2 ≤ k → a.tag = tag → k = a.next → n = a.n →
          ∀ whole : NightMsg, whole = (if a.msg = m then m else Config.joinedMsg a.msg m) →
          (k < n → exec (.office src tag m k n) s = .next { s.heard with nlc := { s.nlc with
            assembly := s.nlc.assembly.set src.1 (some { a with next := a.next + 1, msg := whole }) } }) ∧
          (n ≤ k → exec (.office src tag m k n) s =
            .next (State.takeNight src whole { s.heard with nlc := { s.nlc with
              assembly := s.nlc.assembly.set src.1 none } }))) ∧
        (2 ≤ k → a.tag = tag → k ≠ a.next ∨ n ≠ a.n →
          exec (.office src tag m k n) s = .next { dropped with nlc := { dropped.nlc with
            assembly := s.nlc.assembly.set src.1 none } }) ∧
        (2 ≤ k → a.tag ≠ tag → exec (.office src tag m k n) s = .next s.heard) ∧
        exec (.nightAssemblyTimeout src) s = .next { s with nlc := { s.nlc with
          dropped := bump s.nlc.dropped, assembly := s.nlc.assembly.set src.1 none } }) ∧
  (∀ (src : Station) (s dropped : State),
      dropped = { s with nlc := { s.nlc with dropped := bump s.nlc.dropped } } →
      (∀ (n : Station) (t : Nat) (b : BankNo) (o : Order),
        (s.nlc.carrier = some src → s.takeNight src (.order n t b o) = s.runOrder t b o) ∧
        (s.nlc.carrier ≠ some src → s.takeNight src (.order n t b o) = dropped)) ∧
      (∀ (n : Station) (t b i c : Nat),
        (s.nlc.carrier = some src → s.readWaits b = false →
          ∃ u : State, u = s.report (.records s.stn t (s.readEntries b i c)) t ∧
            s.takeNight src (.read n t b i c) = { u with freeIdx := u.freeIdx + 1 }) ∧
        (s.nlc.carrier = some src → s.readWaits b = true →
          s.takeNight src (.read n t b i c) = { s with deferred := s.deferred ++ [.officeRead t b i c] }) ∧
        (s.nlc.carrier ≠ some src → s.takeNight src (.read n t b i c) = dropped)) ∧
      (∀ m : NightMsg, m.boundForOffice = true →
        (∀ r : SetupRecord, s.nlc.session = .opened ∨ s.nlc.session = .closing → s.sc.page = some r →
          s.takeNight src m = s.route .office .office (nightPacket r m)) ∧
        (s.nlc.session = .day ∨ s.nlc.session = .calling → s.takeNight src m = dropped)) ∧
      (∀ m : NightMsg,
        (∀ r : SetupRecord, s.nlc.session = .opened ∨ s.nlc.session = .closing → s.sc.page = some r →
          s.forwardOffice m = s.route .office .office (nightPacket r m)) ∧
        (s.nlc.session = .day ∨ s.nlc.session = .calling → s.forwardOffice m = dropped)) ∧
      (∀ (m : NightMsg) (tag : Nat), m.isReport = true →
        (s.nlc.carrier = none → s.report m tag = dropped) ∧
        (s.nlc.carrier = some s.stn → s.report m tag = s.forwardOffice m) ∧
        (s.nlc.carrier = some s.stn → s.nlc.session = .day ∨ s.nlc.session = .calling → s.report m tag = dropped) ∧
        (∀ c : Station, s.nlc.carrier = some c → c ≠ s.stn → 32 ≤ s.nlc.sendList.length → s.report m tag = dropped) ∧
        (∀ c : Station, s.nlc.carrier = some c → c ≠ s.stn → s.nlc.sendList.length < 32 →
          s.report m tag = State.flushNight { s with nlc := { s.nlc with sendList := s.nlc.sendList ++
            [{ msg := m, dest := c, tag := tag, n := m.parts, next := 1 }] } })) ∧
      (∀ (m : NightMsg) (c : Station) (tag : Nat),
        (32 ≤ s.nlc.sendList.length → s.addSend m c tag = dropped) ∧
        (s.nlc.sendList.length < 32 →
          s.addSend m c tag = State.flushNight { s with nlc := { s.nlc with sendList := s.nlc.sendList ++
            [{ msg := m, dest := c, tag := tag, n := m.parts, next := 1 }] } })) ∧
      (s.onRecord .night = true ∨ s.nlc.sendList = [] → s.flushNight = s) ∧
      (∀ (e : SendEntry) (rest : List SendEntry), s.onRecord .night = false → s.nlc.sendList = e :: rest →
        s.tp.trunk ≠ .active ∨ 32 ≤ s.tp.qC.length →
        s.flushNight = { s with tp := { s.tp with recordC := s.tp.recordC ++ [e.frame] } }) ∧
      (∀ parts : SendEntry → Nat → List Frame,
        (∀ e k, parts e k = (List.range k).map fun i => SendEntry.frame { e with next := e.next + i }) →
        s.onRecord .night = false → s.tp.trunk = .active → (∀ e ∈ s.nlc.sendList, e.next ≤ e.n) →
        ∀ fits : List SendEntry → List Frame, (∀ l, fits l = l.flatMap fun e => parts e (e.n + 1 - e.next)) →
        (s.tp.qC.length + (fits s.nlc.sendList).length ≤ 32 →
          s.flushNight = { s with
            tp := { s.tp with qC := s.tp.qC ++ fits s.nlc.sendList }, nlc := { s.nlc with sendList := [] } }) ∧
        ∀ (done rest : List SendEntry) (e : SendEntry) (k : Nat), s.nlc.sendList = done ++ e :: rest →
          k < e.n + 1 - e.next → s.tp.qC.length + (fits done).length + k = 32 →
          s.flushNight = { s with
            tp := { s.tp with
              qC := s.tp.qC ++ fits done ++ parts e k
              recordC := s.tp.recordC ++ [SendEntry.frame { e with next := e.next + k }] }
            nlc := { s.nlc with sendList := { e with next := e.next + k } :: rest } })) ∧
  (∀ (e : SendEntry) (r : SetupRecord) (m : NightMsg),
      (∀ t first count, e.msg = .ackJournal t first count →
        e.frame = frameTo e.dest e.tag (.blockAck (.journal first count)) ∧ e.msg.parts = 1) ∧
      (∀ t number, e.msg = .ackActivity t number →
        e.frame = frameTo e.dest e.tag (.blockAck (.activity number)) ∧ e.msg.parts = 1) ∧
      ((∀ t first count, e.msg ≠ .ackJournal t first count) → (∀ t number, e.msg ≠ .ackActivity t number) →
        e.frame = frameTo e.dest e.tag (.office e.msg e.next e.n) ∧ 1 ≤ e.msg.parts ∧ e.msg.parts ≤ 64) ∧
      (nightPacket r m).src = r.stationAddr ∧ (nightPacket r m).dst = r.officeAddr ∧
      (nightPacket r m).body = .night m ∧ 20 ≤ (nightPacket r m).len ∧ (nightPacket r m).len ≤ 1500) ∧
  (∀ (t : Station) (tag : Nat) (b : BankNo) (o : Order) (s : State),
      (s.nlc.session ≠ .opened →
        s.relayOrder t tag b o = { s with nlc := { s.nlc with dropped := bump s.nlc.dropped } }) ∧
      (s.nlc.session = .opened →
        (t = s.stn → s.relayOrder t tag b o = s.runOrder tag b o) ∧
        (t ≠ s.stn → s.tp.peers[t].state = .absent →
          s.relayOrder t tag b o = s.forwardOffice (.orderResult t tag none)) ∧
        (t ≠ s.stn → s.tp.peers[t].state ≠ .absent →
          s.relayOrder t tag b o = s.addSend (.order t tag b o) t tag)) ∧
      (s.is.recovered = false → s.runOrder tag b o = { s with deferred := s.deferred ++ [.order tag b o] }) ∧
      (∀ n : Nat, s.readWaits n = true ↔ n ≤ 3 ∧ s.is.recovered = false ∨ n = 32 ∧ s.ju.recovered = false)) ∧
  (∀ (t : Station) (tag bank i n : Nat) (ref : BlockRef) (s dropped : State),
      dropped = { s with nlc := { s.nlc with dropped := bump s.nlc.dropped } } →
      (s.nlc.session ≠ .opened → exec (.headOfficeRead t tag bank i n) s = .next dropped) ∧
      (s.nlc.session = .opened →
        (t = s.stn → s.readWaits bank = false →
          ∃ u : State, u = s.report (.records s.stn tag (s.readEntries bank i n)) tag ∧
            exec (.headOfficeRead t tag bank i n) s = .next { u with freeIdx := u.freeIdx + 1 }) ∧
        (t = s.stn → s.readWaits bank = true →
          exec (.headOfficeRead t tag bank i n) s =
            .next { s with deferred := s.deferred ++ [.officeRead tag bank i n] }) ∧
        (t ≠ s.stn → s.tp.peers[t].state = .absent →
          exec (.headOfficeRead t tag bank i n) s = .next (s.forwardOffice (.records t tag []))) ∧
        (t ≠ s.stn → s.tp.peers[t].state ≠ .absent →
          exec (.headOfficeRead t tag bank i n) s = .next (s.addSend (.read t tag bank i n) t tag))) ∧
      (s.nlc.session = .day ∨ s.nlc.session = .calling → exec (.headOfficeBlockAck t ref) s = .next dropped) ∧
      (s.nlc.session = .opened ∨ s.nlc.session = .closing →
        (t = s.stn → s.ju.recovered = true ∨ (∃ number, ref = .activity number) →
          exec (.headOfficeBlockAck t ref) s = .next (s.takeAck ref)) ∧
        (∀ first count, t = s.stn → s.ju.recovered = false → ref = .journal first count →
          exec (.headOfficeBlockAck t ref) s = .next { s with deferred := s.deferred ++ [.ack ref] }) ∧
        (t ≠ s.stn → s.tp.peers[t].state = .absent → exec (.headOfficeBlockAck t ref) s = .next dropped) ∧
        (t ≠ s.stn → s.tp.peers[t].state ≠ .absent →
          ∃ u : State, u = s.addSend (ref.msg t) t (Config.openTag s.freeIdx % 256) ∧
            exec (.headOfficeBlockAck t ref) s = .next { u with freeIdx := u.freeIdx + 1 })))

/-- The upload's acknowledgements and timers. BLOCK_ACK is taken from the judged carrier alone: a journal block's timer
stops and the journal is acknowledged, an activity block's positions are cleared under the generation in force and its
entry removed, each a sending opportunity. A timer that runs out returns the block for another try, and the third try's
suspends the upload with every block returned. A BLOCK ACK taken by the journal: the records of its range between head
and committed end are acknowledged, its block leaves the in-flight list, and the head moves over acknowledged records
and void slots; no record is changed otherwise; where no page is in erase and the oldest one now lies behind the head
and is not the newest, its erase begins (R153). A sending opportunity, taken while UPLOADING and the send list holds
fewer than 32: a RETURNED journal block again, with the records still held under its bounds (that it keeps those bounds
and carries the rest when some of its records were acknowledged meanwhile and erased is the model's choice, log 66), or,
with fewer than 4 in flight, one of up to 32 records from the read pointer on, until there is none; then, with no
journal block in flight, a RETURNED activity block formed again from the flags then set, or, with fewer than 4, one of
up to 32 positions from the cursor on. Each goes to the carrier, or at the carrier straight to the forwarding unit
(R150, R194, R197, R199, R20). That a BLOCK ACK of kind JOURNAL waits for the journal's recovery is the model's choice
of how (log 5), one of kind ACTIVITY is taken before it, and an opportunity that comes before it takes nothing (log 35).
Model's readings: logs 2, 5, 22, 26, 35, 50, 66 and 80 (a block's tag is the message number before its rise). -/
def Obligations.BlocksAreAcknowledgedOrReturned : Prop :=
  (∀ (src : Station) (tag : Nat) (s : State), src ≠ s.stn → s.tp.trunk = .active → s.nlc.carrier = some src →
      (∀ (first : Seq) (n : Nat), s.ju.recovered = false →
        exec (.blockAck src tag (.journal first n)) s =
          .next { s.heard with deferred := s.deferred ++ [.ack (.journal first n)] }) ∧
      (∀ number : Nat,
        exec (.blockAck src tag (.activity number)) s = .next (s.heard.takeAck (.activity number))) ∧
      ∀ ref : BlockRef, s.ju.recovered = true → exec (.blockAck src tag ref) s = .next (s.heard.takeAck ref)) ∧
  (∀ (src : Station) (tag : Nat) (s : State), src ≠ s.stn → s.tp.trunk = .active →
      (∀ ref : BlockRef, s.nlc.carrier ≠ some src →
        exec (.blockAck src tag ref) s = .next { s.heard with nlc := { s.nlc with dropped := bump s.nlc.dropped } }) ∧
      (∀ (first : Seq) (n : Nat), s.nlc.carrier = some src → s.ju.recovered = true →
        exec (.blockAck src tag (.journal first n)) s =
          .next (State.opportunity { s.heard with
            nlc := { s.nlc with blockTimers := s.nlc.blockTimers.filter fun t => t.first ≠ first ∨ t.count ≠ n }
            ju := s.ju.ack first n })) ∧
      (∀ (number : Nat), s.nlc.carrier = some src →
        ((∀ e ∈ s.nlc.activity, e.number ≠ number) →
          exec (.blockAck src tag (.activity number)) s = .next s.heard) ∧
        ∀ (e : ActivityEntry) (l r : List ActivityEntry), s.nlc.activity = l ++ e :: r → e.number = number →
          (∀ x ∈ l ++ r, x.number ≠ number) →
          exec (.blockAck src tag (.activity number)) s =
            .next (State.opportunity { s.heard with
              is := { s.is with activity :=
                if e.gen = s.is.gen then s.is.activity.filter fun p => p ∉ e.positions else s.is.activity }
              nlc := { s.nlc with activity := l ++ r } })) ∧
      (∀ (first : Seq) (n : Nat) (u : State),
        u = { s with nlc := { s.nlc with
          blockTimers := s.nlc.blockTimers.filter fun t => t.first ≠ first ∨ t.count ≠ n } } →
        ((∀ t ∈ s.nlc.blockTimers, t.first ≠ first ∨ t.count ≠ n) →
          exec (.journalBlockTimerExpiry first n) s = .next s) ∧
        ((∃ t ∈ s.nlc.blockTimers, t.first = first ∧ t.count = n) →
          ∀ b : Block, s.ju.inflight.find? (fun b => decide (b.first = first) && decide (b.count = n)) = some b →
            (b.tries < 3 →
              exec (.journalBlockTimerExpiry first n) s =
                .next (State.opportunity { u with ju := { s.ju with inflight := s.ju.inflight.map fun b =>
                  if b.first = first ∧ b.count = n then { b with returned := true } else b } })) ∧
            (3 ≤ b.tries →
              exec (.journalBlockTimerExpiry first n) s = .next (State.flushNight { s with
                ju := { s.ju with inflight := [], readPos := s.ju.head }
                nlc := { s.nlc with
                  blockTimers := [], activity := [], cursor := 0, upload := .suspended
                  sendList := s.nlc.sendList.filter fun e => !e.msg.isBlock } })))) ∧
      ∀ number : Nat,
        ((∀ e ∈ s.nlc.activity, e.number = number → e.returned = true) →
          exec (.activityBlockTimerExpiry number) s = .next s) ∧
        ∀ (e : ActivityEntry) (l r : List ActivityEntry), s.nlc.activity = l ++ e :: r → e.number = number →
          e.returned = false → (∀ x ∈ l ++ r, x.number ≠ number) →
          (e.tries < 3 →
            exec (.activityBlockTimerExpiry number) s =
              .next (State.opportunity { s with nlc := { s.nlc with
                activity := l ++ { e with returned := true, ms := 0 } :: r } })) ∧
          (3 ≤ e.tries →
            exec (.activityBlockTimerExpiry number) s = .next (State.flushNight { s with
              ju := { s.ju with inflight := [], readPos := s.ju.head }
              nlc := { s.nlc with
                blockTimers := [], activity := [], cursor := 0, upload := .suspended
                sendList := s.nlc.sendList.filter fun e => !e.msg.isBlock } }))) ∧
  (∀ (m : NightMsg) (s u : State), u = { s with nlc := { s.nlc with msgNo := (s.nlc.msgNo + 1) % 256 } } →
      (s.nlc.carrier = some s.stn → s.sendBlock m = u.toOffice m) ∧
      (∀ c : Station, s.nlc.carrier = some c → c ≠ s.stn → s.sendBlock m = u.addSend m c s.nlc.msgNo)) ∧
  (∀ s : State,
      s.opportunity = s.opportunityFor 16 ∧ s.opportunityFor 0 = s ∧
      (s.nlc.upload ≠ .uploading ∨ 32 ≤ s.nlc.sendList.length ∨ s.ju.recovered = false → s.opportunity = s) ∧
      ∀ k : Nat, s.nlc.upload = .uploading → s.nlc.sendList.length < 32 → s.ju.recovered = true →
        (∀ (b : HandedBlock) (j : JournalUnit), s.ju.nextBlock = (some b, j) →
          s.opportunityFor (k + 1) =
            State.opportunityFor k (State.sendBlock (.journalBlock s.stn b.first b.count b.records) { s with
              ju := j
              nlc := { s.nlc with blockTimers :=
                (s.nlc.blockTimers.filter fun t => !(decide (t.first = b.first) && decide (t.count = b.count))) ++
                  [{ first := b.first, count := b.count, ms := 30000 }] } })) ∧
        (∀ j : JournalUnit, s.ju.nextBlock = (none, j) →
          (s.ju.inflight = [] → (∃ e ∈ s.nlc.activity, e.returned = true) ∨ s.nlc.activity.length < 4 ∧ s.nlc.cursor < 8192 →
            s.opportunityFor (k + 1) = s.activityStep.opportunityFor k) ∧
          (s.ju.inflight ≠ [] ∨ (∀ e ∈ s.nlc.activity, e.returned = false) ∧
              (4 ≤ s.nlc.activity.length ∨ 8192 ≤ s.nlc.cursor) →
            s.opportunityFor (k + 1) = s))) ∧
  (∀ j : JournalUnit,
      (∀ (b : Block) (l r : List Block), j.inflight = l ++ b :: r → b.returned = true →
        (∀ x ∈ l, x.returned = false) →
        j.nextBlock =
          (some { first := b.first, count := b.count, records := j.recordsIn b.first b.count },
            { j with inflight := l ++ { b with returned := false, tries := b.tries + 1 } :: r })) ∧
      ((∀ x ∈ j.inflight, x.returned = false) →
        (4 ≤ j.inflight.length ∨ j.readPos = j.cend → j.nextBlock = (none, j)) ∧
        ∀ found : List (Nat × JRecord), j.inflight.length < 4 → j.readPos < j.cend →
          found = ((List.range (j.cend - j.readPos)).filterMap fun i =>
            match j.slotAt (j.readPos + i) with
            | .record r _ => some (j.readPos + i, r)
            | _ => none).take 32 →
          (found = [] → j.nextBlock = (none, j)) ∧
          ∀ (p q : Nat) (r x : JRecord) (rest : List (Nat × JRecord)), found = (p, r) :: rest →
            found.getLast? = some (q, x) →
            j.nextBlock =
              (some { first := r.seq, count := found.length, records := found.map fun e => e.2 },
                { j with
                  inflight := j.inflight ++ [{ returned := false, first := r.seq, count := found.length, tries := 1 }]
                  readPos := q + 1 })) ∧
      ∀ (first : Seq) (count : Nat) (r : JRecord), j.cend - j.oldest ≤ 65536 →
        (r ∈ j.recordsIn first count ↔
          (r.seq - first).toNat < count ∧ ∃ p a, j.oldest ≤ p ∧ p < j.cend ∧ j.slotAt p = .record r a)) ∧
  (∀ (s : State) (sent : Nat → List Nat → State → State),
      (∀ number ps u, sent number ps u =
        State.sendBlock (.activityBlock s.stn number s.is.gen (s.is.codesAt ps)) u) →
      (∀ (e : ActivityEntry) (l r : List ActivityEntry) (ps : List Nat), s.nlc.activity = l ++ e :: r →
        e.returned = true → (∀ x ∈ l, x.returned = false) →
        ps = (s.is.activity.filter fun p => decide (e.first ≤ p) && decide (p ≤ e.last)).take 32 →
        (ps = [] → s.activityStep = { s with nlc := { s.nlc with activity := l ++ r } }) ∧
        (ps ≠ [] →
          s.activityStep = sent e.number ps { s with nlc := { s.nlc with activity :=
            l ++ { e with returned := false, positions := ps, gen := s.is.gen, tries := e.tries + 1, ms := 30000 } ::
              r } })) ∧
      ∀ ps : List Nat, (∀ e ∈ s.nlc.activity, e.returned = false) →
        ps = (s.is.activity.filter fun p => decide (s.nlc.cursor ≤ p) && decide (p ≤ 8191) &&
          s.nlc.activity.all fun e => decide (p < e.first) || decide (e.last < p)).take 32 →
        (ps = [] → s.activityStep = { s with nlc := { s.nlc with cursor := 8192 } }) ∧
        ∀ last : Nat, ps.getLast? = some last →
          s.activityStep = sent s.nlc.blockNo ps { s with nlc := { s.nlc with
            activity := s.nlc.activity ++ [{ returned := false, number := s.nlc.blockNo, first := s.nlc.cursor
                                             last := last, positions := ps, gen := s.is.gen, tries := 1, ms := 30000 }]
            blockNo := (s.nlc.blockNo + 1) % 256, cursor := last + 1 } }) ∧
  (∀ (j t : JournalUnit) (first : Seq) (count : Nat), t = j.ack first count → j.cend - j.head ≤ 65536 →
      (∀ (p : Nat) (r : JRecord) (a : Bool), j.head ≤ p → p < j.cend → j.slotAt p = .record r a →
        t.slotAt p = .record r (a || decide ((r.seq - first).toNat < count))) ∧
      (∀ p : Nat, j.head ≤ p → p < j.cend → (∀ r a, j.slotAt p ≠ .record r a) → t.slotAt p = j.slotAt p) ∧
      (∀ p : Nat, (∀ q, j.head ≤ q → q < j.cend → q % 65536 ≠ p % 65536) → t.slotAt p = j.slotAt p) ∧
      t.inflight = j.inflight.filter (fun b => b.first != first || b.count != count) ∧
      j.head ≤ t.head ∧ t.head ≤ max j.head j.cend ∧
      (∀ p : Nat, j.head ≤ p → p < t.head → t.slotAt p = .void ∨ ∃ r, t.slotAt p = .record r true) ∧
      (t.head < j.cend → ¬(t.slotAt t.head = .void ∨ ∃ r, t.slotAt t.head = .record r true)) ∧
      t.readPos = max j.readPos t.head ∧ t.cend = j.cend ∧ t.tailPos = j.tailPos ∧ t.nextSeq = j.nextSeq ∧
      t.free = j.free ∧ t.reserved = j.reserved ∧ t.queue = j.queue ∧ t.owed = j.owed ∧ t.words = j.words ∧
      t.recovered = j.recovered ∧
      ∀ opened : Prop,
        (opened ↔ j.recovered = true ∧ j.tailPos % 256 = 0 ∧ j.wordAt (j.tailPos / 256 % 256) ≠ none ∧
          j.tailPos + j.erasingCount < j.oldest + 65536) →
        (j.erasing = none → j.oldest + 256 ≤ t.head →
          j.oldest + 256 < j.tailPos ∨ opened ∧ j.oldest + 256 = j.tailPos → 256 ≤ j.used →
          t.erasing = some { page := j.oldest / 256 % 256, ms := 20 } ∧ t.oldest = j.oldest + 256 ∧
            t.used + 256 = j.used) ∧
        (j.erasing ≠ none ∨ t.head < j.oldest + 256 ∨ j.tailPos < j.oldest + 256 ∨
            j.tailPos = j.oldest + 256 ∧ ¬opened ∨ j.used < 256 →
          t.erasing = j.erasing ∧ t.oldest = j.oldest ∧ t.used = j.used))


/-! ## Chapter 12: setup, records and reset -/

/-- SETUP: ALREADY-SET at a SET station, BAD-SETUP with the first field out of range, and otherwise the record is taken
and answered DONE: the page holds it and the setup routes are its own, the four of Table 9-2 in its order and then the
extra ones (R159; in the order of the record: log 78); RESTART is handed to the guest air port if guest service is on,
and no air message is if it is off (R185); and the day mark is the greatest day whose window start the clock has
reached, or none with the clock UNSET (R189, R202). The radio starts with S raised to 512, 1,024, 2,048 or 4,096, or
lowered to 4,096, and k within 2 to 16, each change setting its clamp flag (R125); with a review running the start waits
for the walk's end, and before the item store's recovery for that (R140). CLEAR_SETUP: DONE at an UNSET station, BUSY
while a basket or a park entry is held, and otherwise the page, the day mark and the three clamp flags are cleared,
every request that waits is answered NOT-READY and every session ended (R87), every client is told EVICTED and freed
(R185), the packets that wait are dropped and counted by their class (R170), the reports leave the send list of a
carrier in session (R193, R201), and it is answered DONE. SETUP_ANSWER is discarded. The fields of a setup record are
judged in the order of its table, and the first one out of range is named, a next hop that is none of the manual's among
them. Model's readings: logs 31 (a day before day 0), 33, 60, 68, 69, 70, 78 and 83. -/
def Obligations.SetupIsTakenAndCleared : Prop :=
  (∀ (src : Station) (tag : Nat) (s : State), src ≠ s.stn → s.tp.trunk = .active →
      (∀ r : SetupRecord,
        (s.sc.page ≠ none →
          exec (.setup src tag r) s =
            .next { s.heard with tp := (s.heard.tp.handOver (frameTo src tag (.setupAnswer .alreadySet))).2 }) ∧
        (∀ f : SetupField, s.sc.page = none → r.badField = some f →
          exec (.setup src tag r) s =
            .next { s.heard with tp := (s.heard.tp.handOver (frameTo src tag (.setupAnswer (.badSetup f)))).2 }) ∧
        (s.sc.page = none → r.badField = none →
          ∃ u : State,
            exec (.setup src tag r) s =
              .next { u with tp := (u.tp.handOver (frameTo src tag (.setupAnswer .done))).2 } ∧
            u.sc.page = some r ∧ u.fu.setupRoutes = setupRoutesOf r ∧
            u.sc.shareClamped = decide (50 < r.guestShare) ∧
            (s.is.recovered = true → s.lrc.review = none → u.lrc.running = true ∧
              u.lrc.period = some (clampPeriod r.period) ∧ u.lrc.slots = some (clampSlots r.slots) ∧
              (u.lrc.slotsClamped = true ↔ r.slots ≠ 512 ∧ r.slots ≠ 1024 ∧ r.slots ≠ 2048 ∧ r.slots ≠ 4096) ∧
              (u.lrc.periodClamped = true ↔ r.period < 2 ∨ 16 < r.period)) ∧
            (∀ v : Review, s.is.recovered = true → s.lrc.review = some v →
              u.lrc = { s.lrc with review := some { v with rebuild := true } }) ∧
            (s.is.recovered = false → u.lrc = s.lrc) ∧
            (s.sc.clockState = .unset → ∀ t, r.now = some t → u.sc.clock = some t ∧ u.sc.clockState = .peerSet) ∧
            (s.sc.clockState ≠ .unset ∨ r.now = none →
              u.sc.clock = s.sc.clock ∧ u.sc.clockState = s.sc.clockState) ∧
            (u.sc.clockState = .unset → u.sc.dayMark = none) ∧
            (∀ c : Time, u.sc.clockState ≠ .unset → u.sc.clock = some c →
              u.sc.dayMark = some (if 60 * r.winStart ≤ c.sec then (c.day : Int) else c.day - 1)) ∧
            (r.guestService = .yes →
              (s.gu.airSending = none →
                u.gu.airSending = some .restart ∧ ∃ new, u.out = s.out ++ new ∧ .air .restart ∈ new) ∧
              (s.gu.airSending ≠ none →
                u.gu.airSending = s.gu.airSending ∧ ∃ rest, u.gu.airQueue = s.gu.airQueue ++ .restart :: rest)) ∧
            (r.guestService ≠ .yes → u.gu.airSending = s.gu.airSending ∧ u.gu.airQueue = s.gu.airQueue) ∧
            u.stn = s.stn ∧ u.now = s.now ∧ u.pending = s.pending)) ∧
      (s.sc.page = none →
        exec (.clearSetup src tag) s =
          .next { s.heard with tp := (s.heard.tp.handOver (frameTo src tag (.setupAnswer .done))).2 }) ∧
      (s.sc.page ≠ none →
        (∃ k : TillNo, s.bu.tills[k].basket.state ≠ .empty) ∨ (∃ j : ParkNo, s.bu.park[j].state ≠ .free) →
        exec (.clearSetup src tag) s =
          .next { s.heard with tp := (s.heard.tp.handOver (frameTo src tag (.setupAnswer .busy))).2 }) ∧
      (s.sc.page ≠ none → (∀ k : TillNo, s.bu.tills[k].basket.state = .empty) →
        (∀ j : ParkNo, s.bu.park[j].state = .free) →
        ∃ u : State,
          exec (.clearSetup src tag) s =
            .next { u with tp := (u.tp.handOver (frameTo src tag (.setupAnswer .done))).2 } ∧
          u.sc.page = none ∧ u.sc.dayMark = none ∧ u.sc.shareClamped = false ∧ u.lrc.slotsClamped = false ∧
          u.lrc.periodClamped = false ∧ u.fu.setupRoutes = [] ∧ u.fu.officePending = [] ∧
          u.fu.upTill = [] ∧ u.fu.upOffice = [] ∧ u.fu.upGuest = [] ∧ u.fu.credit = 0 ∧
          u.nlc.session = .day ∧ u.nlc.served = false ∧ u.nlc.holdMs = none ∧
          (∀ k : TillNo, u.bu.tills[k].session = none ∧ u.bu.tills[k].outstanding = none ∧
            u.lu.queries[k].state = .free) ∧
          (∀ i : Fin 128, u.gu.clients[i].state = .free) ∧
          u.lrc.running = false ∧ u.lrc.sweep = false ∧ u.lrc.exchange = none ∧
          u.sc.clock = s.sc.clock ∧ u.sc.clockState = s.sc.clockState ∧ u.is = s.is ∧ u.gu.codes = s.gu.codes ∧
          (∃ new, u.out = s.out ++ new ∧ ∀ (k : TillNo) (o : Outstanding), s.bu.tills[k].outstanding = some o →
            .answer k o.tag (.refused .notReady) ∈ new) ∧
          (u.deferred = s.deferred.filter fun w => w.tillOf.isNone) ∧
          (∀ (kept told : List AirMsg), kept = (s.gu.airQueue.filter fun m => !m.isData) →
            told = ((fins 128).filter fun i => decide (s.gu.clients[i].state ≠ .free)).map
              (fun i => .notice s.gu.clients[i].addr .evicted) →
            (s.gu.airSending ≠ none → u.gu.airQueue = kept ++ told ∧ u.gu.airSending = s.gu.airSending) ∧
            (s.gu.airSending = none → u.gu.airQueue = kept ++ told.tail ∧ u.gu.airSending = told.head?)) ∧
          u.gu.guestDropped = bumpBy s.gu.guestDropped (s.gu.airQueue.filter AirMsg.isData).length ∧
          u.fu.droppedTill = bumpBy s.fu.droppedTill s.fu.upTill.length ∧
          u.fu.droppedOffice = bumpBy s.fu.droppedOffice (s.fu.upOffice.length + s.fu.officePending.length) ∧
          u.fu.guestDropped = bumpBy s.fu.guestDropped s.fu.upGuest.length ∧
          (s.nlc.session ≠ .day → ∀ e ∈ u.nlc.sendList, e.msg.isReport = false) ∧
          u.stn = s.stn ∧ u.now = s.now) ∧
      ∀ r : SetupResult, exec (.setupAnswer src tag r) s = .next s.heard) ∧
  (∀ (r : SetupRecord) (bad : SetupField → Prop) (order : List SetupField),
      order = [.store, .zone, .uplink, .ceiling, .rates, .cashStep, .channel, .guestService, .threshold, .window, .tillNet,
        .guestNet, .officeNet, .extra, .now] →
      (∀ f, bad f ↔ match f with
        | .store => 65535 < r.store
        | .zone => r.zone < 1 ∨ 63 < r.zone
        | .uplink => r.uplink = .outOfRange
        | .ceiling => ∃ i : Fin 8, 3 < r.ceiling[i]
        | .rates => ∃ i : Fin 4, 2500 < r.rates[i]
        | .cashStep => r.cashStep ≠ 1 ∧ r.cashStep ≠ 5 ∧ r.cashStep ≠ 10
        | .channel => 15 < r.channel
        | .guestService => r.guestService = .outOfRange
        | .threshold => 999999999 < r.threshold
        | .window => 1439 < r.winStart ∨ 1439 < r.winEnd
        | .tillNet => 32 < r.tillNet.len
        | .guestNet => 32 < r.guestNet.len
        | .officeNet => 32 < r.officeNet.len
        | .extra => 4 < r.extra.length ∨ ∃ x ∈ r.extra, (∃ n, x = .badHop n) ∨ ∃ y, x = .route y ∧ 32 < y.net.len
        | .now => ∃ t, r.now = some t ∧ (4294967295 < t.day ∨ 86399 < t.sec)) →
      (r.badField = none ↔ ∀ f, ¬bad f) ∧
      ∀ f, r.badField = some f ↔ bad f ∧ ∃ before after, order = before ++ f :: after ∧ ∀ x ∈ before, ¬bad x) ∧
  (∀ n : Nat,
      (n ≤ 512 → clampSlots n = 512) ∧ (512 < n → n ≤ 1024 → clampSlots n = 1024) ∧
      (1024 < n → n ≤ 2048 → clampSlots n = 2048) ∧ (2048 < n → clampSlots n = 4096) ∧
      (n < 2 → clampPeriod n = 2) ∧ (2 ≤ n → n ≤ 16 → clampPeriod n = n) ∧ (16 < n → clampPeriod n = 16)) ∧
  ∀ (r : SetupRecord) (xs : List Route) (hop : NextHop), r.extra = xs.map ExtraRoute.route →
    (r.uplink = .yes → hop = .uplink) → (r.uplink ≠ .yes → hop = .trunkCarrier) →
    setupRoutesOf r =
      { net := r.tillNet, hop := .tillLines, till := true, office := true, guest := false } ::
      { net := r.guestNet, hop := if r.guestService = .yes then .guestPort else .drop
        till := false, office := false, guest := true } ::
      { net := r.officeNet, hop := hop, till := true, office := true, guest := false } ::
      { net := { addr := 0, len := 0 }, hop := hop, till := true, office := true, guest := true } :: xs

/-- READ_RECORDS: at most 16 entries are answered, the index counting on from 65,535 to 0; the RECORDS frame is handed,
or waits for room; with 4 already waiting the read is discarded and counted, whatever it reads; a read of a bank whose
block recovers waits, which is the model's choice of how (log 5). RECORDS is discarded. The entries: an item bank's
records and header entry (that of an ERASING bank with no record, and with the words still there or gone: the manual
does not say which, log 12), the active bank's departments, the labels, the journal's slots from the head on, clients,
codes, peers, park entries, the status record and the setup record, and absent markers elsewhere (R24, R46, R122, R141,
R156, R186, R206). The FAULT pin: asserted until both recoveries have ended, while the station is UNSET, in DUPLICATE,
at 3,276 free journal slots or fewer, and while a bank is TORN (R207). The status record: the labels in each state and
those of low battery, display fault or owed a blank (R142); the clients in each state (R186); the journal's counts,
positions and sequence numbers and its pages in each state and awaiting erase (R144); and the queues, routes and credit
(R170). A counter stays at 4,294,967,295 once there. Model's readings: logs 5, 12, 45, 46, 47, 48, 49 and 55 (the label
channel of an UNSET station is none). -/
def Obligations.ReadsAreAnsweredOrKept : Prop :=
  (∀ (src : Station) (tag bank i n : Nat) (s : State) (f : Frame), src ≠ s.stn → s.tp.trunk = .active →
    f = frameTo src tag (.records ((List.range (min n 16)).map fun k => s.readEntry bank ((i + k) % 65536))) →
    (∀ es : List ReadEntry, exec (.records src tag es) s = .next s.heard) ∧
    (4 ≤ s.sc.pendingRecords.length →
      exec (.readRecords src tag bank i n) s =
        .next { s.heard with sc := { s.sc with readsDropped := bump s.sc.readsDropped } }) ∧
    (s.sc.pendingRecords.length < 4 → bank ≤ 3 ∧ s.is.recovered = false ∨ bank = 32 ∧ s.ju.recovered = false →
      exec (.readRecords src tag bank i n) s =
        .next { s.heard with deferred := s.deferred ++ [.read src tag bank i n] }) ∧
    ((3 < bank ∨ s.is.recovered = true) → (bank ≠ 32 ∨ s.ju.recovered = true) →
      (s.sc.pendingRecords.length < 4 → s.tp.qC.length < 32 →
        exec (.readRecords src tag bank i n) s =
          .next { s.heard with tp := { s.heard.tp with qC := s.tp.qC ++ [f] }, freeIdx := s.freeIdx + 1 }) ∧
      (s.sc.pendingRecords.length < 4 → 32 ≤ s.tp.qC.length →
        exec (.readRecords src tag bank i n) s =
          .next { s.heard with
            tp := { s.heard.tp with recordC := s.tp.recordC ++ [f] }
            sc := { s.sc with pendingRecords := s.sc.pendingRecords ++ [f] }, freeIdx := s.freeIdx + 1 }))) ∧
  (∀ (s : State) (rec i : Nat),
    (∀ b : BankNo, rec = b.val + 1 ∨ rec = 0 ∧ s.is.selected = some b →
      (∀ r, i ≠ 65535 → (s.is.bank b).erasing = none → (s.is.bank b).records[i]? = some r →
        s.readEntry rec i = .record r) ∧
      (i ≠ 65535 → (s.is.bank b).erasing ≠ none ∨ (s.is.bank b).records[i]? = none → s.readEntry rec i = .absent) ∧
      (i = 65535 → (s.is.bank b).erasing = none →
        s.readEntry rec i = .header
          { bank := b, state := (s.is.bank b).state
            intended := match (s.is.bank b).openWord with | .good g => some g | _ => none
            complete := (s.is.bank b).records.length
            sealed := match (s.is.bank b).sealWord with | .good w => some w | _ => none
            active := decide ((s.is.bank b).activeWord = .good ())
            retired := decide ((s.is.bank b).retiredWord = .good ()) }) ∧
      (∀ stand : Bool, i = 65535 → (s.is.bank b).erasing ≠ none → stand = Config.wordsStand s.freeIdx →
        s.readEntry rec i = .header
          { bank := b, state := .erasing
            intended := match stand, (s.is.bank b).openWord with | true, .good g => some g | _, _ => none
            complete := 0
            sealed := match stand, (s.is.bank b).sealWord with | true, .good w => some w | _, _ => none
            active := stand && decide ((s.is.bank b).activeWord = .good ())
            retired := stand && decide ((s.is.bank b).retiredWord = .good ()) })) ∧
    (rec = 0 → s.is.selected = none → s.readEntry rec i = .absent) ∧
    (rec = 3 →
      (∀ e, i < 100 → s.is.deptEntry i = some e → s.readEntry rec i = .dept e) ∧
      (100 ≤ i ∨ s.is.deptEntry i = none → s.readEntry rec i = .absent)) ∧
    (rec = 16 →
      (i < 4096 → s.readEntry rec i = .label (s.lrc.label i) ((s.lrc.label i).itemCode s.is.activeBank)) ∧
      (i = 65535 → s.readEntry rec i = .labelControl
        { running := s.lrc.running, sweep := s.lrc.sweep, passCount := s.lrc.passCount
          review := s.lrc.review.isSome, cycle := s.lrc.cycle, slots := s.lrc.slots, period := s.lrc.period
          slotsClamped := s.lrc.slotsClamped, periodClamped := s.lrc.periodClamped
          channel := s.sc.page.map fun r => r.channel }) ∧
      (4096 ≤ i → i ≠ 65535 → s.readEntry rec i = .absent)) ∧
    (rec = 32 →
      (∀ r a, i < 65535 → s.ju.head + i < s.ju.cend → s.ju.slotAt (s.ju.head + i) = .record r a →
        s.readEntry rec i = .journal r r.body.closes a) ∧
      (65535 ≤ i ∨ s.ju.cend ≤ s.ju.head + i ∨ (∀ r a, s.ju.slotAt (s.ju.head + i) ≠ .record r a) →
        s.readEntry rec i = .absent)) ∧
    (rec = 48 →
      (∀ n : Fin 128, i = n.val → s.readEntry rec i = .client s.gu.clients[n]) ∧
      (i = 65535 → s.readEntry rec i = .guestUnit s.guestOn s.gu.serial s.gu.codes.length) ∧
      (128 ≤ i → i ≠ 65535 → s.readEntry rec i = .absent)) ∧
    (rec = 49 →
      (∀ c, i ≤ 255 → s.gu.codes[i]? = some c → s.readEntry rec i = .code c { issuer := s.stn, serial := c.serial }) ∧
      (255 < i ∨ s.gu.codes[i]? = none → s.readEntry rec i = .absent)) ∧
    (rec = 64 →
      (∀ n : Station, i = n.val → s.readEntry rec i = .peer s.tp.peers[n]) ∧ (16 ≤ i → s.readEntry rec i = .absent)) ∧
    (rec = 80 →
      (∀ (n : ParkNo) (e : ParkEntry), i = n.val → e = s.bu.park[n] →
        s.readEntry rec i = .park
          { state := e.state, ticket := if e.state = .free then none else some (s.stn.val * 100 + n.val)
            origin := e.content.map fun c => c.origin, cashier := e.content.map fun c => c.cashier
            parked := e.content.bind fun c => c.parked, lineCount := e.content.map fun c => c.lines.length
            held := e.held, requester := e.requester, abandonPending := e.abandonPending }) ∧
      (16 ≤ i → s.readEntry rec i = .absent)) ∧
    (rec = 96 →
      (i = 0 → s.readEntry rec i = .status s.status) ∧
      (∀ r, i = 1 → s.sc.page = some r → s.readEntry rec i = .setup r) ∧
      (1 < i ∨ i = 1 ∧ s.sc.page = none → s.readEntry rec i = .absent)) ∧
    (rec ∉ [0, 1, 2, 3, 16, 32, 48, 49, 64, 80, 96] → s.readEntry rec i = .absent)) ∧
  ∀ (s : State) (c : FaultCauses),
    (c.recovering = true ↔ s.is.recovered = false ∨ s.ju.recovered = false) →
    (c.unset = true ↔ s.sc.page = none) → (c.duplicate = true ↔ s.tp.trunk = .dupHold ∨ s.tp.trunk = .dupListen) →
    (c.journalLow = true ↔ s.ju.free ≤ 3276) →
    (c.torn = true ↔ (s.is.bank 0).state = .torn ∨ (s.is.bank 1).state = .torn) →
    (s.faultPin = true ↔ c.recovering = true ∨ c.unset = true ∨ c.duplicate = true ∨ c.journalLow = true ∨
      c.torn = true) ∧
    s.status =
      { set := s.sc.page.isSome, trunk := s.tp.trunk, clock := s.sc.clock, clockState := s.sc.clockState
        dayMark := s.sc.dayMark, gen := s.is.gen, bank0 := (s.is.bank 0).state, bank1 := (s.is.bank 1).state
        journal := s.ju.status, labels := s.lrc.status, guests := s.gu.status, forward := s.fu.status
        night :=
          { session := s.nlc.session, carrier := s.nlc.carrier, served := s.nlc.served, hold := s.nlc.holdMs.isSome
            upload := s.nlc.upload, done := s.uploadDone, journalBlocks := s.ju.inflight.length
            activityBlocks := s.nlc.activity.length, sendList := s.nlc.sendList.length }
        slotsClamped := s.lrc.slotsClamped, periodClamped := s.lrc.periodClamped, shareClamped := s.sc.shareClamped
        fault := c, counters := s.counters } ∧
    (s.uploadDone = true ↔ s.ju.readPos = s.ju.cend ∧ s.ju.inflight = [] ∧ s.nlc.activity = [] ∧ s.nlc.cursor = 8192) ∧
    s.counters =
      { badFrames := s.tp.badFrames, collisions := s.tp.collisions, duplicateEntries := s.tp.duplicateEntries
        droppedTill := s.fu.droppedTill
        droppedGuest := bumpBy s.tp.guestDropped (s.fu.guestDropped + s.gu.guestDropped)
        droppedOffice := s.fu.droppedOffice, noCarrier := s.fu.noCarrier, lostSnapshots := s.is.lostSnapshots
        lostTransfers := s.bu.lostTransfers, codesNotIssued := s.gu.notIssued, codesNotReturned := s.gu.notReturned
        nightDropped := s.nlc.dropped, callsFailed := s.nlc.callsFailed, sessionsOpened := s.nlc.sessionsOpened
        readsDropped := s.sc.readsDropped } ∧
    (s.ju.status.used = s.ju.used ∧ s.ju.status.reserved = s.ju.reserved ∧ s.ju.status.free = s.ju.free ∧
      s.ju.status.erasing = (if s.ju.erasing = none then 0 else 256) ∧ s.ju.status.head = s.ju.head % 65536 ∧
      s.ju.status.tail = s.ju.tailPos % 65536 ∧ (s.ju.status.low = true ↔ s.ju.free ≤ 3276) ∧
      s.ju.status.pagesErasing = (if s.ju.erasing = none then 0 else 1) ∧
      s.ju.status.pagesFull = (s.ju.tailPos - s.ju.oldest) / 256 ∧
      (s.ju.tailPos % 256 ≠ 0 → s.ju.status.pagesWriting = 1) ∧
      (∀ opened : Prop,
        (opened ↔ s.ju.recovered = true ∧ s.ju.tailPos % 256 = 0 ∧ s.ju.wordAt (s.ju.tailPos / 256 % 256) ≠ none ∧
          s.ju.tailPos + s.ju.erasingCount < s.ju.oldest + 65536) →
        (s.ju.tailPos % 256 = 0 → opened → s.ju.status.pagesWriting = 1) ∧
        (s.ju.tailPos % 256 = 0 → ¬opened → s.ju.status.pagesWriting = 0) ∧
        (opened → s.ju.status.awaiting = (min s.ju.head s.ju.tailPos - s.ju.oldest) / 256) ∧
        (¬opened → s.ju.status.awaiting = (min s.ju.head (s.ju.tailPos - 1) - s.ju.oldest) / 256)) ∧
      s.ju.status.pagesErased =
        256 - s.ju.status.pagesFull - s.ju.status.pagesWriting - s.ju.status.pagesErasing ∧
      (∀ r a, s.ju.head < s.ju.cend → s.ju.slotAt s.ju.head = .record r a → s.ju.status.headSeq = some r.seq) ∧
      (s.ju.cend ≤ s.ju.head ∨ (∀ r a, s.ju.slotAt s.ju.head ≠ .record r a) → s.ju.status.headSeq = none) ∧
      (s.ju.owed = none → s.ju.status.endSeq = s.ju.nextSeq) ∧
      (∀ o, s.ju.owed = some o → s.ju.status.endSeq = o.first)) ∧
    s.fu.status.credit = s.fu.credit ∧ s.fu.status.till = s.fu.upTill.length ∧
    s.fu.status.office = s.fu.upOffice.length ∧ s.fu.status.guest = s.fu.upGuest.length ∧
    s.fu.status.pending = s.fu.officePending.length ∧ s.fu.status.setupRoutes = s.fu.setupRoutes.length ∧
    s.fu.status.learnedRoutes = ((fins 16).filter fun n => s.fu.learned[n].isSome).length ∧
    s.lrc.status.unreachable = (s.lrc.labels.filter fun e => decide (e.2.state = .unreachable)).length ∧
    (∀ is : List Nat, Tbl.wf {} s.lrc.labels = true → is.Nodup →
      ((∀ i, i ∈ is ↔ (s.lrc.label i).state ≠ .unbound) → s.lrc.status.unbound = 4096 - is.length) ∧
      ((∀ i, i ∈ is ↔ (s.lrc.label i).state = .unchecked) → s.lrc.status.unchecked = is.length) ∧
      ((∀ i, i ∈ is ↔ (s.lrc.label i).state = .review) → s.lrc.status.review = is.length) ∧
      ((∀ i, i ∈ is ↔ (s.lrc.label i).state = .stale) → s.lrc.status.stale = is.length) ∧
      ((∀ i, i ∈ is ↔ (s.lrc.label i).state = .current) → s.lrc.status.current = is.length) ∧
      ((∀ i, i ∈ is ↔ (s.lrc.label i).state = .unreachable) → s.lrc.status.unreachable = is.length) ∧
      ((∀ i, i ∈ is ↔ (s.lrc.label i).batteryLow = true) → s.lrc.status.batteryLow = is.length) ∧
      ((∀ i, i ∈ is ↔ (s.lrc.label i).displayFault = true) → s.lrc.status.displayFault = is.length) ∧
      ((∀ i, i ∈ is ↔ (s.lrc.label i).blankPending = true) → s.lrc.status.owedBlank = is.length)) ∧
    s.lrc.status.slotsClamped = s.lrc.slotsClamped ∧ s.lrc.status.periodClamped = s.lrc.periodClamped ∧
    (∀ count : ClientState → Nat,
      (∀ x, count x = ((fins 128).filter fun i => decide (s.gu.clients[i].state = x)).length) →
      s.gu.status =
        { free := count .free, opened := count .opened, checking := count .checking, admitted := count .admitted
          blocked := count .blocked, codes := s.gu.codes.length, notIssued := s.gu.notIssued
          notReturned := s.gu.notReturned }) ∧
    s.gu.status.codes = s.gu.codes.length ∧
    ∀ n k : Nat, bumpBy n k = min (n + k) 4294967295 ∧ bump n = min (n + 1) 4294967295

/-- DAY_ROLL, when one is due: the day is marked, ACCESSED merges into ACTIVITY, PARKED baskets are abandoned and
those IN-TRANSFER are marked, the cache and the code list are empty, and the activity upload starts over with a
sending opportunity; when none is due nothing changes. For each abandoned entry, in slot order, the journal queue gets a
group of its ABANDON record, and all but one of the records the entry held are released (R120, R121). -/
def Obligations.DayRollReachesEveryBlock : Prop :=
  ∀ s : State,
    (s.dayDue = none → exec .dayRoll s = .next s) ∧
    (∀ (r : SetupRecord) (c : Time) (m : Int), s.sc.page = some r → s.sc.clock = some c → s.sc.dayMark = some m →
      s.sc.clockState ≠ .unset →
      s.dayDue =
        if m < (if 60 * r.winStart ≤ c.sec then (c.day : Int) else c.day - 1) then
          some (if 60 * r.winStart ≤ c.sec then (c.day : Int) else c.day - 1)
        else none) ∧
    ∀ d : Int, s.dayDue = some d →
      ∃ u : State, exec .dayRoll s = .next u.opportunity ∧
        u.sc = { s.sc with dayMark := some d } ∧
        u.is = { s.is with activity := Flags.merge s.is.activity s.is.accessed, accessed := [] } ∧
        (∀ j : ParkNo,
          (s.bu.park[j].state = .inTransfer → u.bu.park[j] = { s.bu.park[j] with abandonPending := true }) ∧
          (s.bu.park[j].state = .parked → s.bu.park[j].content ≠ none → u.bu.park[j].state = .abandoning ∧
            u.bu.park[j].held = 1 ∧ u.bu.park[j].content = s.bu.park[j].content) ∧
          (s.bu.park[j].state = .free ∨ s.bu.park[j].state = .abandoning → u.bu.park[j] = s.bu.park[j])) ∧
        (∀ i : Fin 32, u.lu.cache[i] = {}) ∧ u.lu.queries = s.lu.queries ∧ u.gu = { s.gu with codes := [] } ∧
        u.nlc = { s.nlc with cursor := 0 } ∧ u.bu.tills = s.bu.tills ∧ u.bu.recalls = s.bu.recalls ∧
        u.ju.used = s.ju.used ∧ u.ju.used + u.ju.reserved + u.ju.free = s.ju.used + s.ju.reserved + s.ju.free ∧
        (∀ (abandoned : List ParkNo) (group : ParkNo → ParkContent → Group),
          abandoned = (fins 16).filter (fun j =>
            decide (s.bu.park[j].state = .parked) && s.bu.park[j].content.isSome) →
          (∀ j c, group j c = { holder := .park j, bodies := [.abandon
            { ticket := 100 * s.stn.val + j.val, origin := c.origin, cashier := c.cashier, parked := c.parked
              time := s.sc.clock, lineCount := c.lines.length, gross := (amountsOf c.lines c.promos).gross
              total := (amountsOf c.lines c.promos).total, limit := c.limit }] }) →
          u.ju.queue = s.ju.queue ++ abandoned.filterMap (fun j => s.bu.park[j].content.map (group j)) ∧
          (sumOf (fun j : ParkNo => s.bu.park[j].held - 1) abandoned ≤ s.ju.reserved →
            u.ju.reserved = s.ju.reserved - sumOf (fun j : ParkNo => s.bu.park[j].held - 1) abandoned)) ∧
        u.tp = s.tp ∧ u.lrc = s.lrc ∧ u.fu = s.fu ∧ u.stn = s.stn ∧ u.now = s.now ∧ u.out = s.out

/-- POWER_ON_RESET: the station number is that of the pins; the trunk port LISTENs for 1 s with empty queues, an empty
peer table and its counters 0; both recoveries are to come; baskets, park table, queries, clients, codes, routes,
session, upload and clock are as at reset; the setup page stays, and a SET station has its setup routes, the share clamp
flag of its record, and, with guest service on, RESTART on the guest air port (R185, R202). Of a bank in erase there
stays what the stage of the erase left; of a header word, ITEM APPEND, DEPT, SEAL or switchover cut short its part done,
as operands say that name them, and an operand that does not fit the bank leaves it as it was (log 13). Of a journal
group that a power loss cut short there stay its whole records and perhaps, of the next one, the page word it opens or
its incomplete body; a journal page in erase is as it was, has lost its word, or is wholly erased, every other page
keeping word and slots; a page with content and no word is ERASING from here on (R153, R154). That the price generation
is 0 until the recovery, whatever the banks' words, is the model's choice (log 39), and so are the journal's counts
until then (log 49). Model's readings: logs 8, 13 and 79 (what waited for the guest air port, and what a port was
sending, is lost). -/
def Obligations.PowerOnResetKeepsTheStoresAlone : Prop :=
  ∀ (pins : Station) (cut : PowerCut) (s : State),
    ∃ t, exec (.powerOnReset pins cut) s = .next t ∧
      t.stn = pins ∧ t.tp = {} ∧ t.lu = {} ∧ t.bu = {} ∧ t.lrc = {} ∧ t.nlc = {} ∧ t.now = 0 ∧
      t.is.recovered = false ∧ t.is.gen = 0 ∧ t.is.accessed = [] ∧ t.is.activity = [] ∧ t.is.lostSnapshots = 0 ∧
      t.ju.recovered = false ∧ t.ju.reserved = 0 ∧ t.ju.queue = [] ∧
      t.sc.page = s.sc.page ∧ t.sc.clock = none ∧ t.sc.clockState = .unset ∧ t.sc.dayMark = none ∧
      t.sc.pendingRecords = [] ∧ t.sc.readsDropped = 0 ∧
      t.fu = { linkUp := s.fu.linkUp, rate := s.fu.rate
               setupRoutes := (s.sc.page.map setupRoutesOf).getD [] } ∧
      (t.sc.shareClamped = true ↔ ∃ r, s.sc.page = some r ∧ 50 < r.guestShare) ∧
      (∀ r : SetupRecord, s.sc.page = some r → r.guestService = .yes →
        t.gu = { airSending := some .restart } ∧ t.out = s.out ++ [.air .restart]) ∧
      ((∀ r : SetupRecord, s.sc.page = some r → r.guestService ≠ .yes) → t.gu = {} ∧ t.out = s.out) ∧
      (∀ (b : BankNo) (w : ItemStore) (x y : Bank) (stage : EraseStage), w = s.is.cutWrite cut.write → x = w.bank b →
        y = t.is.bank b → stage = (if b = 0 then cut.erase0 else cut.erase1) →
        (x.erasing = none ∨ stage = .untouched → y = { x with erasing := none, labelUse := none, lastCode := none }) ∧
        (x.erasing ≠ none →
          (∀ n : Nat, stage = .headerPartly n →
            y = { x with
              openWord := if n = 0 then x.openWord else .erased
              sealWord := if n < 2 then x.sealWord else .erased
              activeWord := if n < 3 then x.activeWord else .erased
              retiredWord := if n < 4 then x.retiredWord else .erased
              erasing := none, labelUse := none, lastCode := none }) ∧
          (∀ (depts : Bool) (n : Nat), stage = .contentLeft depts n →
            ∃ residue : Bool, y = { depts := if depts then x.depts else [], records := x.records.take n, residue := residue } ∧
              (residue = true ↔ x.depts ≠ [] ∨ x.records ≠ [] ∨ x.tail ≠ [] ∨ x.residue = true)) ∧
          (stage = .allErased → y = {}))) ∧
      (∀ (c : BankNo) (x y : Bank) (only : Prop), x = s.is.bank c → y = (s.is.cutWrite cut.write).bank c →
        (only ↔ ∀ b : BankNo, b ≠ c → (s.is.cutWrite cut.write).bank b = s.is.bank b) →
        (cut.write = .nothing → y = x) ∧
        (cut.write = .openWord c → only ∧
          (x.state = .erased → y = { x with openWord := .failed }) ∧ (x.state ≠ .erased → y = x)) ∧
        (∀ (whole : List AppendItem) (next : AppendItem) (words : Nat), cut.write = .append c whole next words → only ∧
          (x.state ≠ .erased → x.state ≠ .filling → y = x) ∧
          (x.state = .erased ∨ x.state = .filling →
            ∀ (z : Bank) (n : Nat) (o : OrderOutcome), x.runAppend s.is.gen whole 0 = (z, n, o) →
              (o = .done → z.refuses next = none →
                y = { z.opened s.is.gen with tail := next.words.take words }) ∧
              (o ≠ .done ∨ z.refuses next ≠ none → y = z))) ∧
        (∀ (whole : List DeptItem) (next : DeptItem), cut.write = .dept c whole next → only ∧
          (x.state ≠ .erased → x.state ≠ .filling → y = x) ∧
          (x.state = .erased ∨ x.state = .filling →
            ∀ (z : Bank) (n : Nat) (o : OrderOutcome), x.runDept s.is.gen whole 0 = (z, n, o) →
              (o = .done → next.bad = false → z.deptEntry next.dept = none → y = z.opened s.is.gen) ∧
              (o ≠ .done ∨ next.bad = true ∨ z.deptEntry next.dept ≠ none → y = z))) ∧
        (cut.write = .sealWord c → only ∧
          (x.state = .filling → y = { x with sealWord := .failed }) ∧ (x.state ≠ .filling → y = x)) ∧
        ∀ done : Bool, cut.write = .switchover c done → only ∧
          (x.state = .sealed → y = { x with activeWord := if done then .good () else .failed }) ∧
          (x.state ≠ .sealed → y = x)) ∧
      (∀ (z : Bank) (gen : Nat), (z.state ≠ .erased → z.opened gen = z) ∧ (z.state = .erased → z.opened gen =
        { z with openWord := .good (if gen = 4294967295 then 0 else gen + 1), labelUse := some [], lastCode := none })) ∧
      (∀ (words : Tbl (Option Seq)) (slots : Tbl JSlot),
        (s.ju.queue = [] → words = s.ju.words ∧ slots = s.ju.slots) →
        (∀ (g : Group) (rest : List Group) (w : JournalUnit), s.ju.queue = g :: rest →
          w = (g.bodies.take cut.groupRecords).foldl JournalUnit.writeRecord s.ju →
          (cut.groupNext = .untouched ∨ g.bodies.length ≤ cut.groupRecords → words = w.words ∧ slots = w.slots) ∧
          (cut.groupNext = .pageWord → cut.groupRecords < g.bodies.length →
            words = w.openPage.words ∧ slots = w.slots) ∧
          (cut.groupNext = .incomplete → cut.groupRecords < g.bodies.length →
            words = w.openPage.words ∧ slots = Tbl.put .erased w.slots (w.tailPos % 65536) .incomplete)) →
        (s.ju.erasing = none ∨ cut.page = .untouched → t.ju.words = words ∧ t.ju.slots = slots) ∧
        ∀ e : PageErase, s.ju.erasing = some e →
          (cut.page = .wordCleared → t.ju.words = Tbl.put none words e.page none ∧ t.ju.slots = slots) ∧
          (cut.page = .allErased → t.ju.words = Tbl.put none words e.page none ∧
            t.ju.slots = slots.filter fun x => decide (x.1 / 256 ≠ e.page)) ∧
          (Tbl.wf none words = true →
            (∀ page, page ≠ e.page → t.ju.wordAt page = Tbl.get none words page) ∧
            (cut.page ≠ .untouched → t.ju.wordAt e.page = none)) ∧
          (∀ p : Nat, p / 256 % 256 ≠ e.page → t.ju.slotAt p = Tbl.get .erased slots (p % 65536)) ∧
          ∀ p : Nat, p / 256 % 256 = e.page → cut.page = .allErased → t.ju.slotAt p = .erased) ∧
      (t.ju.erasing = none → ∀ e ∈ t.ju.slots, t.ju.wordAt (e.1 / 256) ≠ none) ∧
      (∀ e, t.ju.erasing = some e → e.ms = 20 ∧ t.ju.wordAt e.page = none ∧ ∃ x ∈ t.ju.slots, x.1 / 256 = e.page) ∧
      t.ju.free = (if t.ju.erasing = none then 65536 else 65280) ∧
      t.deferred = [] ∧ t.pending = s.pending


/-! ## What every step keeps -/

/-- The account of the journal's 65,536 slots closes at every moment, and the reserved count is the sum of what the
baskets, park entries, recalls and queued groups hold (R144), for baskets that come from other stations as R115 sends
them. A park entry's fields are at every moment what its state says (R110). Model's readings: log 5 (what waits for a
recovery). -/
def Obligations.EveryStepKeepsTheJournalAccount : Prop :=
  (∀ s t : State, s.ju.AccountsClose → step s = .next t → t.ju.AccountsClose) ∧
  (∀ s t : State, s.HoldersAgree → s.TransfersAgree → step s = .next t → t.HoldersAgree) ∧
  ∀ s t : State, (∀ j : ParkNo, s.bu.park[j].Shaped) → step s = .next t → ∀ j : ParkNo, t.bu.park[j].Shaped

/-- No step overfills a transmit queue or leaves a frame where the trunk state allows none (Table 2-6, R33, R35,
R38). The trunk state changes only along the transitions of section 2.4: LISTEN to ACTIVE, either of them to the hold
of DUPLICATE, the hold to the listen, the listen to ACTIVE or to a new hold, and any state to LISTEN at a
POWER_ON_RESET alone, where the station number alone can change. The carrier and the upload follow the peer table, the
setup and the link at every moment (R41, R187, R197, R200). -/
def Obligations.EveryStepKeepsTheTrunkRules : Prop :=
  (∀ s t : State, s.tp.QueuesFit → s.tp.SilentUnlessActive → step s = .next t →
      t.tp.QueuesFit ∧ t.tp.SilentUnlessActive) ∧
  (∀ s t : State, s.CarrierTrue → step s = .next t → t.CarrierTrue) ∧
  (∀ s t : State, step s = .next t →
      (∃ pins cut rest, s.pending = .powerOnReset pins cut :: rest ∧ t.tp.trunk = .listening ∧ t.stn = pins) ∨
      (t.stn = s.stn ∧
        (t.tp.trunk = s.tp.trunk ∨ s.tp.trunk = .listening ∧ (t.tp.trunk = .active ∨ t.tp.trunk = .dupHold) ∨
          s.tp.trunk = .active ∧ t.tp.trunk = .dupHold ∨ s.tp.trunk = .dupHold ∧ t.tp.trunk = .dupListen ∨
          s.tp.trunk = .dupListen ∧ (t.tp.trunk = .active ∨ t.tp.trunk = .dupHold))))

/-- The rules of the remote cache hold at every moment (R49). -/
def Obligations.EveryStepKeepsTheCacheTrue : Prop :=
  ∀ s t : State, s.CacheTrue → step s = .next t → t.CacheTrue

/-- What a client entry and the code list hold together they hold at every moment (R172, R178, R180). -/
def Obligations.EveryStepKeepsClientsAndCodes : Prop :=
  ∀ s t : State, s.ClientsHold → s.gu.CodesHold → step s = .next t → t.ClientsHold ∧ t.gu.CodesHold

/-- The price generation is that of the one ACTIVE bank, at every moment (R15, R23); and the records, department
entries and SEAL word of a bank SEALED, ACTIVE or RETIRED stay while it is one of these (R1, R6). -/
def Obligations.SealedBanksStandAndGiveTheGeneration : Prop :=
  (∀ s t : State, s.is.GenerationTrue → step s = .next t → t.is.GenerationTrue) ∧
  (∀ s t : State, s.is.SealedWhole → step s = .next t → t.is.SealedWhole) ∧
  ∀ (s t : State) (b : BankNo), s.is.SealedWhole → step s = .next t →
    (s.is.bank b).state ∈ [BankState.sealed, .active, .retired] →
    (t.is.bank b).state ∈ [BankState.sealed, .active, .retired] →
    (t.is.bank b).records = (s.is.bank b).records ∧ (t.is.bank b).depts = (s.is.bank b).depts ∧
      (t.is.bank b).sealWord = (s.is.bank b).sealWord

/-- The bounds of the guest credit hold at every moment, and no step but GUEST_CREDIT_WINDOW raises it above what it
was, or above 0 (R169). Every counter stays within 32 bits, and none falls but at a POWER_ON_RESET (Table 12-2, R46). -/
def Obligations.CreditAndCountersKeepTheirRange : Prop :=
  (∀ s t : State, s.CreditKept → step s = .next t → t.CreditKept) ∧
  (∀ s t : State, step s = .next t → (∀ rest, s.pending ≠ .guestCreditWindow :: rest) →
      t.fu.credit ≤ max 0 s.fu.credit) ∧
  (∀ s t : State, s.counters.Within → step s = .next t →
      t.counters.Within ∧
        ((∀ pins cut rest, s.pending ≠ .powerOnReset pins cut :: rest) → s.counters.NoneFalls t.counters))

/-- The sparse tables and flag sets keep their canonical form, and every label's entry is at every moment what its state
says: a CURRENT one is confirmed at the generation in force, one in REVIEW has a review, an UNREACHABLE one has failed 6
times and a reachable one fewer (R124). Model's readings: log 36. -/
def Obligations.EveryStepKeepsTheTablesCanonical : Prop :=
  (∀ s t : State, s.TablesCanonical → step s = .next t → t.TablesCanonical) ∧
  ∀ s t : State, s.TablesCanonical → s.LabelsHold → step s = .next t → t.LabelsHold

/-- The state at reset has every property that the steps keep, and the values the manual gives for reset: LISTEN with 1
s to run, empty queues and tables (the three transmit queues and the records of refused frames, every peer ABSENT, no
cached price and no query, tills, park table and recalls idle, the write queue and the upload empty, every label
UNBOUND, no route, packet, client, code, message or assembly), every counter 0, and the clock unset with no day mark.
The model's choice are the empty stores (both banks erased, the journal unwritten, the setup page empty, so that the
station is UNSET: log 3), price generation 0 with no bank selected and all journal slots free before the recoveries
(logs 39 and 49), the station number 0 (log 4) and the link down (log 8). -/
def Obligations.ResetHoldsEveryProperty : Prop :=
  State.reset.ju.AccountsClose ∧ State.reset.tp.QueuesFit ∧ State.reset.tp.SilentUnlessActive ∧
    State.reset.CacheTrue ∧ State.reset.ClientsHold ∧ State.reset.gu.CodesHold ∧ State.reset.is.GenerationTrue ∧
    State.reset.is.SealedWhole ∧ State.reset.CreditKept ∧ State.reset.counters.Within ∧
    State.reset.TablesCanonical ∧ State.reset.HoldersAgree ∧ State.reset.TransfersAgree ∧
    (∀ j : ParkNo, State.reset.bu.park[j].Shaped) ∧ State.reset.LabelsHold ∧ State.reset.CarrierTrue ∧
    State.reset.tp.trunk = .listening ∧ State.reset.tp.trunkMs = 1000 ∧
    State.reset.is.gen = 0 ∧ State.reset.is.selected = none ∧ State.reset.ju.free = 65536 ∧
    State.reset.sc.clockState = .unset ∧ State.reset.sc.page = none ∧ State.reset.pending = [] ∧
    State.reset.stn = 0 ∧ State.reset.fu.linkUp = false ∧
    (∀ b : BankNo, (State.reset.is.bank b).state = .erased ∧ State.reset.is.bank b = {}) ∧
    State.reset.is.accessed = [] ∧ State.reset.is.activity = [] ∧ State.reset.is.recovered = false ∧
    State.reset.tp.qA = [] ∧ State.reset.tp.qB = [] ∧ State.reset.tp.qC = [] ∧ State.reset.tp.keptA = [] ∧
    State.reset.tp.recordC = [] ∧ State.reset.tp.sending = none ∧ State.reset.tp.lastGarble = none ∧
    (∀ n : Station, State.reset.tp.peers[n] = {} ∧ State.reset.tp.peers[n].state = .absent ∧
      State.reset.tp.peers[n].gen = 0 ∧ State.reset.fu.learned[n] = none ∧ State.reset.fu.relayDropped[n] = [] ∧
      State.reset.nlc.assembly[n] = none) ∧
    (∀ i : Fin 32, State.reset.lu.cache[i] = { way0 := none, way1 := none, older1 := false }) ∧
    (∀ k : TillNo, State.reset.lu.queries[k] = {} ∧ State.reset.lu.queries[k].state = .free ∧
      State.reset.bu.tills[k] = {} ∧ State.reset.bu.tills[k].basket.state = .empty ∧
      State.reset.bu.recalls[k] = {} ∧ State.reset.bu.recalls[k].phase = .idle) ∧
    (∀ j : ParkNo, State.reset.bu.park[j] = {} ∧ State.reset.bu.park[j].state = .free) ∧
    State.reset.ju.words = [] ∧ State.reset.ju.slots = [] ∧ State.reset.ju.queue = [] ∧ State.reset.ju.inflight = [] ∧
    State.reset.ju.used = 0 ∧ State.reset.ju.reserved = 0 ∧ State.reset.ju.recovered = false ∧
    State.reset.lrc.labels = [] ∧ (∀ i : Nat, (State.reset.lrc.label i).state = .unbound) ∧
    State.reset.lrc.running = false ∧ State.reset.lrc.review = none ∧
    State.reset.fu.setupRoutes = [] ∧ State.reset.fu.officePending = [] ∧
    (∀ i : Fin 8, State.reset.fu.reasm[i] = none) ∧ State.reset.fu.upTill = [] ∧ State.reset.fu.upOffice = [] ∧
    State.reset.fu.upGuest = [] ∧ State.reset.fu.upSending = none ∧ State.reset.fu.credit = 0 ∧
    (∀ i : Fin 128, State.reset.gu.clients[i] = {} ∧ State.reset.gu.clients[i].state = .free) ∧
    State.reset.gu.codes = [] ∧ State.reset.gu.serial = 0 ∧ State.reset.gu.airSending = none ∧
    State.reset.gu.airQueue = [] ∧ State.reset.nlc.session = .day ∧ State.reset.nlc.upload = .idle ∧
    State.reset.nlc.carrier = none ∧ State.reset.nlc.sendList = [] ∧ State.reset.nlc.activity = [] ∧
    State.reset.nlc.blockTimers = [] ∧ State.reset.sc.clock = none ∧ State.reset.sc.dayMark = none ∧
    State.reset.sc.pendingRecords = [] ∧ State.reset.deferred = [] ∧ State.reset.out = [] ∧
    State.reset.counters =
      { badFrames := 0, collisions := 0, duplicateEntries := 0, droppedTill := 0, droppedGuest := 0, droppedOffice := 0
        noCarrier := 0, lostSnapshots := 0, lostTransfers := 0, codesNotIssued := 0, codesNotReturned := 0
        nightDropped := 0, callsFailed := 0, sessionsOpened := 0, readsDropped := 0 }
end

