-- ==== Sys2Proof/Laws/State.lean ====
section
/-!
SUPPORT. One lemma for each field and each modifier of the state, true by unfolding, so that no later proof unfolds a
record update.
-/

namespace Sys2Proof.Machine

variable (s : State)

@[simp] theorem State.onTp_tp (f : TrunkPort → TrunkPort) : (s.onTp f).tp = f s.tp := rfl
@[simp] theorem State.onTp_stn (f : TrunkPort → TrunkPort) : (s.onTp f).stn = s.stn := rfl
@[simp] theorem State.onTp_now (f : TrunkPort → TrunkPort) : (s.onTp f).now = s.now := rfl
@[simp] theorem State.onTp_is (f : TrunkPort → TrunkPort) : (s.onTp f).is = s.is := rfl
@[simp] theorem State.onTp_lu (f : TrunkPort → TrunkPort) : (s.onTp f).lu = s.lu := rfl
@[simp] theorem State.onTp_bu (f : TrunkPort → TrunkPort) : (s.onTp f).bu = s.bu := rfl
@[simp] theorem State.onTp_ju (f : TrunkPort → TrunkPort) : (s.onTp f).ju = s.ju := rfl
@[simp] theorem State.onTp_lrc (f : TrunkPort → TrunkPort) : (s.onTp f).lrc = s.lrc := rfl
@[simp] theorem State.onTp_fu (f : TrunkPort → TrunkPort) : (s.onTp f).fu = s.fu := rfl
@[simp] theorem State.onTp_gu (f : TrunkPort → TrunkPort) : (s.onTp f).gu = s.gu := rfl
@[simp] theorem State.onTp_nlc (f : TrunkPort → TrunkPort) : (s.onTp f).nlc = s.nlc := rfl
@[simp] theorem State.onTp_sc (f : TrunkPort → TrunkPort) : (s.onTp f).sc = s.sc := rfl
@[simp] theorem State.onTp_deferred (f : TrunkPort → TrunkPort) : (s.onTp f).deferred = s.deferred := rfl
@[simp] theorem State.onTp_out (f : TrunkPort → TrunkPort) : (s.onTp f).out = s.out := rfl
@[simp] theorem State.onTp_freeIdx (f : TrunkPort → TrunkPort) : (s.onTp f).freeIdx = s.freeIdx := rfl
@[simp] theorem State.onTp_pending (f : TrunkPort → TrunkPort) : (s.onTp f).pending = s.pending := rfl

@[simp] theorem State.onIs_is (f : ItemStore → ItemStore) : (s.onIs f).is = f s.is := rfl
@[simp] theorem State.onIs_stn (f : ItemStore → ItemStore) : (s.onIs f).stn = s.stn := rfl
@[simp] theorem State.onIs_now (f : ItemStore → ItemStore) : (s.onIs f).now = s.now := rfl
@[simp] theorem State.onIs_tp (f : ItemStore → ItemStore) : (s.onIs f).tp = s.tp := rfl
@[simp] theorem State.onIs_lu (f : ItemStore → ItemStore) : (s.onIs f).lu = s.lu := rfl
@[simp] theorem State.onIs_bu (f : ItemStore → ItemStore) : (s.onIs f).bu = s.bu := rfl
@[simp] theorem State.onIs_ju (f : ItemStore → ItemStore) : (s.onIs f).ju = s.ju := rfl
@[simp] theorem State.onIs_lrc (f : ItemStore → ItemStore) : (s.onIs f).lrc = s.lrc := rfl
@[simp] theorem State.onIs_fu (f : ItemStore → ItemStore) : (s.onIs f).fu = s.fu := rfl
@[simp] theorem State.onIs_gu (f : ItemStore → ItemStore) : (s.onIs f).gu = s.gu := rfl
@[simp] theorem State.onIs_nlc (f : ItemStore → ItemStore) : (s.onIs f).nlc = s.nlc := rfl
@[simp] theorem State.onIs_sc (f : ItemStore → ItemStore) : (s.onIs f).sc = s.sc := rfl
@[simp] theorem State.onIs_deferred (f : ItemStore → ItemStore) : (s.onIs f).deferred = s.deferred := rfl
@[simp] theorem State.onIs_out (f : ItemStore → ItemStore) : (s.onIs f).out = s.out := rfl
@[simp] theorem State.onIs_freeIdx (f : ItemStore → ItemStore) : (s.onIs f).freeIdx = s.freeIdx := rfl
@[simp] theorem State.onIs_pending (f : ItemStore → ItemStore) : (s.onIs f).pending = s.pending := rfl

@[simp] theorem State.onLu_lu (f : LookupUnit → LookupUnit) : (s.onLu f).lu = f s.lu := rfl
@[simp] theorem State.onLu_stn (f : LookupUnit → LookupUnit) : (s.onLu f).stn = s.stn := rfl
@[simp] theorem State.onLu_now (f : LookupUnit → LookupUnit) : (s.onLu f).now = s.now := rfl
@[simp] theorem State.onLu_tp (f : LookupUnit → LookupUnit) : (s.onLu f).tp = s.tp := rfl
@[simp] theorem State.onLu_is (f : LookupUnit → LookupUnit) : (s.onLu f).is = s.is := rfl
@[simp] theorem State.onLu_bu (f : LookupUnit → LookupUnit) : (s.onLu f).bu = s.bu := rfl
@[simp] theorem State.onLu_ju (f : LookupUnit → LookupUnit) : (s.onLu f).ju = s.ju := rfl
@[simp] theorem State.onLu_lrc (f : LookupUnit → LookupUnit) : (s.onLu f).lrc = s.lrc := rfl
@[simp] theorem State.onLu_fu (f : LookupUnit → LookupUnit) : (s.onLu f).fu = s.fu := rfl
@[simp] theorem State.onLu_gu (f : LookupUnit → LookupUnit) : (s.onLu f).gu = s.gu := rfl
@[simp] theorem State.onLu_nlc (f : LookupUnit → LookupUnit) : (s.onLu f).nlc = s.nlc := rfl
@[simp] theorem State.onLu_sc (f : LookupUnit → LookupUnit) : (s.onLu f).sc = s.sc := rfl
@[simp] theorem State.onLu_deferred (f : LookupUnit → LookupUnit) : (s.onLu f).deferred = s.deferred := rfl
@[simp] theorem State.onLu_out (f : LookupUnit → LookupUnit) : (s.onLu f).out = s.out := rfl
@[simp] theorem State.onLu_freeIdx (f : LookupUnit → LookupUnit) : (s.onLu f).freeIdx = s.freeIdx := rfl
@[simp] theorem State.onLu_pending (f : LookupUnit → LookupUnit) : (s.onLu f).pending = s.pending := rfl

@[simp] theorem State.onBu_bu (f : BasketUnit → BasketUnit) : (s.onBu f).bu = f s.bu := rfl
@[simp] theorem State.onBu_stn (f : BasketUnit → BasketUnit) : (s.onBu f).stn = s.stn := rfl
@[simp] theorem State.onBu_now (f : BasketUnit → BasketUnit) : (s.onBu f).now = s.now := rfl
@[simp] theorem State.onBu_tp (f : BasketUnit → BasketUnit) : (s.onBu f).tp = s.tp := rfl
@[simp] theorem State.onBu_is (f : BasketUnit → BasketUnit) : (s.onBu f).is = s.is := rfl
@[simp] theorem State.onBu_lu (f : BasketUnit → BasketUnit) : (s.onBu f).lu = s.lu := rfl
@[simp] theorem State.onBu_ju (f : BasketUnit → BasketUnit) : (s.onBu f).ju = s.ju := rfl
@[simp] theorem State.onBu_lrc (f : BasketUnit → BasketUnit) : (s.onBu f).lrc = s.lrc := rfl
@[simp] theorem State.onBu_fu (f : BasketUnit → BasketUnit) : (s.onBu f).fu = s.fu := rfl
@[simp] theorem State.onBu_gu (f : BasketUnit → BasketUnit) : (s.onBu f).gu = s.gu := rfl
@[simp] theorem State.onBu_nlc (f : BasketUnit → BasketUnit) : (s.onBu f).nlc = s.nlc := rfl
@[simp] theorem State.onBu_sc (f : BasketUnit → BasketUnit) : (s.onBu f).sc = s.sc := rfl
@[simp] theorem State.onBu_deferred (f : BasketUnit → BasketUnit) : (s.onBu f).deferred = s.deferred := rfl
@[simp] theorem State.onBu_out (f : BasketUnit → BasketUnit) : (s.onBu f).out = s.out := rfl
@[simp] theorem State.onBu_freeIdx (f : BasketUnit → BasketUnit) : (s.onBu f).freeIdx = s.freeIdx := rfl
@[simp] theorem State.onBu_pending (f : BasketUnit → BasketUnit) : (s.onBu f).pending = s.pending := rfl

@[simp] theorem State.onJu_ju (f : JournalUnit → JournalUnit) : (s.onJu f).ju = f s.ju := rfl
@[simp] theorem State.onJu_stn (f : JournalUnit → JournalUnit) : (s.onJu f).stn = s.stn := rfl
@[simp] theorem State.onJu_now (f : JournalUnit → JournalUnit) : (s.onJu f).now = s.now := rfl
@[simp] theorem State.onJu_tp (f : JournalUnit → JournalUnit) : (s.onJu f).tp = s.tp := rfl
@[simp] theorem State.onJu_is (f : JournalUnit → JournalUnit) : (s.onJu f).is = s.is := rfl
@[simp] theorem State.onJu_lu (f : JournalUnit → JournalUnit) : (s.onJu f).lu = s.lu := rfl
@[simp] theorem State.onJu_bu (f : JournalUnit → JournalUnit) : (s.onJu f).bu = s.bu := rfl
@[simp] theorem State.onJu_lrc (f : JournalUnit → JournalUnit) : (s.onJu f).lrc = s.lrc := rfl
@[simp] theorem State.onJu_fu (f : JournalUnit → JournalUnit) : (s.onJu f).fu = s.fu := rfl
@[simp] theorem State.onJu_gu (f : JournalUnit → JournalUnit) : (s.onJu f).gu = s.gu := rfl
@[simp] theorem State.onJu_nlc (f : JournalUnit → JournalUnit) : (s.onJu f).nlc = s.nlc := rfl
@[simp] theorem State.onJu_sc (f : JournalUnit → JournalUnit) : (s.onJu f).sc = s.sc := rfl
@[simp] theorem State.onJu_deferred (f : JournalUnit → JournalUnit) : (s.onJu f).deferred = s.deferred := rfl
@[simp] theorem State.onJu_out (f : JournalUnit → JournalUnit) : (s.onJu f).out = s.out := rfl
@[simp] theorem State.onJu_freeIdx (f : JournalUnit → JournalUnit) : (s.onJu f).freeIdx = s.freeIdx := rfl
@[simp] theorem State.onJu_pending (f : JournalUnit → JournalUnit) : (s.onJu f).pending = s.pending := rfl

@[simp] theorem State.onLrc_lrc (f : LabelRadio → LabelRadio) : (s.onLrc f).lrc = f s.lrc := rfl
@[simp] theorem State.onLrc_stn (f : LabelRadio → LabelRadio) : (s.onLrc f).stn = s.stn := rfl
@[simp] theorem State.onLrc_now (f : LabelRadio → LabelRadio) : (s.onLrc f).now = s.now := rfl
@[simp] theorem State.onLrc_tp (f : LabelRadio → LabelRadio) : (s.onLrc f).tp = s.tp := rfl
@[simp] theorem State.onLrc_is (f : LabelRadio → LabelRadio) : (s.onLrc f).is = s.is := rfl
@[simp] theorem State.onLrc_lu (f : LabelRadio → LabelRadio) : (s.onLrc f).lu = s.lu := rfl
@[simp] theorem State.onLrc_bu (f : LabelRadio → LabelRadio) : (s.onLrc f).bu = s.bu := rfl
@[simp] theorem State.onLrc_ju (f : LabelRadio → LabelRadio) : (s.onLrc f).ju = s.ju := rfl
@[simp] theorem State.onLrc_fu (f : LabelRadio → LabelRadio) : (s.onLrc f).fu = s.fu := rfl
@[simp] theorem State.onLrc_gu (f : LabelRadio → LabelRadio) : (s.onLrc f).gu = s.gu := rfl
@[simp] theorem State.onLrc_nlc (f : LabelRadio → LabelRadio) : (s.onLrc f).nlc = s.nlc := rfl
@[simp] theorem State.onLrc_sc (f : LabelRadio → LabelRadio) : (s.onLrc f).sc = s.sc := rfl
@[simp] theorem State.onLrc_deferred (f : LabelRadio → LabelRadio) : (s.onLrc f).deferred = s.deferred := rfl
@[simp] theorem State.onLrc_out (f : LabelRadio → LabelRadio) : (s.onLrc f).out = s.out := rfl
@[simp] theorem State.onLrc_freeIdx (f : LabelRadio → LabelRadio) : (s.onLrc f).freeIdx = s.freeIdx := rfl
@[simp] theorem State.onLrc_pending (f : LabelRadio → LabelRadio) : (s.onLrc f).pending = s.pending := rfl

@[simp] theorem State.onFu_fu (f : Forwarding → Forwarding) : (s.onFu f).fu = f s.fu := rfl
@[simp] theorem State.onFu_stn (f : Forwarding → Forwarding) : (s.onFu f).stn = s.stn := rfl
@[simp] theorem State.onFu_now (f : Forwarding → Forwarding) : (s.onFu f).now = s.now := rfl
@[simp] theorem State.onFu_tp (f : Forwarding → Forwarding) : (s.onFu f).tp = s.tp := rfl
@[simp] theorem State.onFu_is (f : Forwarding → Forwarding) : (s.onFu f).is = s.is := rfl
@[simp] theorem State.onFu_lu (f : Forwarding → Forwarding) : (s.onFu f).lu = s.lu := rfl
@[simp] theorem State.onFu_bu (f : Forwarding → Forwarding) : (s.onFu f).bu = s.bu := rfl
@[simp] theorem State.onFu_ju (f : Forwarding → Forwarding) : (s.onFu f).ju = s.ju := rfl
@[simp] theorem State.onFu_lrc (f : Forwarding → Forwarding) : (s.onFu f).lrc = s.lrc := rfl
@[simp] theorem State.onFu_gu (f : Forwarding → Forwarding) : (s.onFu f).gu = s.gu := rfl
@[simp] theorem State.onFu_nlc (f : Forwarding → Forwarding) : (s.onFu f).nlc = s.nlc := rfl
@[simp] theorem State.onFu_sc (f : Forwarding → Forwarding) : (s.onFu f).sc = s.sc := rfl
@[simp] theorem State.onFu_deferred (f : Forwarding → Forwarding) : (s.onFu f).deferred = s.deferred := rfl
@[simp] theorem State.onFu_out (f : Forwarding → Forwarding) : (s.onFu f).out = s.out := rfl
@[simp] theorem State.onFu_freeIdx (f : Forwarding → Forwarding) : (s.onFu f).freeIdx = s.freeIdx := rfl
@[simp] theorem State.onFu_pending (f : Forwarding → Forwarding) : (s.onFu f).pending = s.pending := rfl

@[simp] theorem State.onGu_gu (f : GuestUnit → GuestUnit) : (s.onGu f).gu = f s.gu := rfl
@[simp] theorem State.onGu_stn (f : GuestUnit → GuestUnit) : (s.onGu f).stn = s.stn := rfl
@[simp] theorem State.onGu_now (f : GuestUnit → GuestUnit) : (s.onGu f).now = s.now := rfl
@[simp] theorem State.onGu_tp (f : GuestUnit → GuestUnit) : (s.onGu f).tp = s.tp := rfl
@[simp] theorem State.onGu_is (f : GuestUnit → GuestUnit) : (s.onGu f).is = s.is := rfl
@[simp] theorem State.onGu_lu (f : GuestUnit → GuestUnit) : (s.onGu f).lu = s.lu := rfl
@[simp] theorem State.onGu_bu (f : GuestUnit → GuestUnit) : (s.onGu f).bu = s.bu := rfl
@[simp] theorem State.onGu_ju (f : GuestUnit → GuestUnit) : (s.onGu f).ju = s.ju := rfl
@[simp] theorem State.onGu_lrc (f : GuestUnit → GuestUnit) : (s.onGu f).lrc = s.lrc := rfl
@[simp] theorem State.onGu_fu (f : GuestUnit → GuestUnit) : (s.onGu f).fu = s.fu := rfl
@[simp] theorem State.onGu_nlc (f : GuestUnit → GuestUnit) : (s.onGu f).nlc = s.nlc := rfl
@[simp] theorem State.onGu_sc (f : GuestUnit → GuestUnit) : (s.onGu f).sc = s.sc := rfl
@[simp] theorem State.onGu_deferred (f : GuestUnit → GuestUnit) : (s.onGu f).deferred = s.deferred := rfl
@[simp] theorem State.onGu_out (f : GuestUnit → GuestUnit) : (s.onGu f).out = s.out := rfl
@[simp] theorem State.onGu_freeIdx (f : GuestUnit → GuestUnit) : (s.onGu f).freeIdx = s.freeIdx := rfl
@[simp] theorem State.onGu_pending (f : GuestUnit → GuestUnit) : (s.onGu f).pending = s.pending := rfl

@[simp] theorem State.onNlc_nlc (f : NightLink → NightLink) : (s.onNlc f).nlc = f s.nlc := rfl
@[simp] theorem State.onNlc_stn (f : NightLink → NightLink) : (s.onNlc f).stn = s.stn := rfl
@[simp] theorem State.onNlc_now (f : NightLink → NightLink) : (s.onNlc f).now = s.now := rfl
@[simp] theorem State.onNlc_tp (f : NightLink → NightLink) : (s.onNlc f).tp = s.tp := rfl
@[simp] theorem State.onNlc_is (f : NightLink → NightLink) : (s.onNlc f).is = s.is := rfl
@[simp] theorem State.onNlc_lu (f : NightLink → NightLink) : (s.onNlc f).lu = s.lu := rfl
@[simp] theorem State.onNlc_bu (f : NightLink → NightLink) : (s.onNlc f).bu = s.bu := rfl
@[simp] theorem State.onNlc_ju (f : NightLink → NightLink) : (s.onNlc f).ju = s.ju := rfl
@[simp] theorem State.onNlc_lrc (f : NightLink → NightLink) : (s.onNlc f).lrc = s.lrc := rfl
@[simp] theorem State.onNlc_fu (f : NightLink → NightLink) : (s.onNlc f).fu = s.fu := rfl
@[simp] theorem State.onNlc_gu (f : NightLink → NightLink) : (s.onNlc f).gu = s.gu := rfl
@[simp] theorem State.onNlc_sc (f : NightLink → NightLink) : (s.onNlc f).sc = s.sc := rfl
@[simp] theorem State.onNlc_deferred (f : NightLink → NightLink) : (s.onNlc f).deferred = s.deferred := rfl
@[simp] theorem State.onNlc_out (f : NightLink → NightLink) : (s.onNlc f).out = s.out := rfl
@[simp] theorem State.onNlc_freeIdx (f : NightLink → NightLink) : (s.onNlc f).freeIdx = s.freeIdx := rfl
@[simp] theorem State.onNlc_pending (f : NightLink → NightLink) : (s.onNlc f).pending = s.pending := rfl

@[simp] theorem State.onSc_sc (f : StationControl → StationControl) : (s.onSc f).sc = f s.sc := rfl
@[simp] theorem State.onSc_stn (f : StationControl → StationControl) : (s.onSc f).stn = s.stn := rfl
@[simp] theorem State.onSc_now (f : StationControl → StationControl) : (s.onSc f).now = s.now := rfl
@[simp] theorem State.onSc_tp (f : StationControl → StationControl) : (s.onSc f).tp = s.tp := rfl
@[simp] theorem State.onSc_is (f : StationControl → StationControl) : (s.onSc f).is = s.is := rfl
@[simp] theorem State.onSc_lu (f : StationControl → StationControl) : (s.onSc f).lu = s.lu := rfl
@[simp] theorem State.onSc_bu (f : StationControl → StationControl) : (s.onSc f).bu = s.bu := rfl
@[simp] theorem State.onSc_ju (f : StationControl → StationControl) : (s.onSc f).ju = s.ju := rfl
@[simp] theorem State.onSc_lrc (f : StationControl → StationControl) : (s.onSc f).lrc = s.lrc := rfl
@[simp] theorem State.onSc_fu (f : StationControl → StationControl) : (s.onSc f).fu = s.fu := rfl
@[simp] theorem State.onSc_gu (f : StationControl → StationControl) : (s.onSc f).gu = s.gu := rfl
@[simp] theorem State.onSc_nlc (f : StationControl → StationControl) : (s.onSc f).nlc = s.nlc := rfl
@[simp] theorem State.onSc_deferred (f : StationControl → StationControl) : (s.onSc f).deferred = s.deferred := rfl
@[simp] theorem State.onSc_out (f : StationControl → StationControl) : (s.onSc f).out = s.out := rfl
@[simp] theorem State.onSc_freeIdx (f : StationControl → StationControl) : (s.onSc f).freeIdx = s.freeIdx := rfl
@[simp] theorem State.onSc_pending (f : StationControl → StationControl) : (s.onSc f).pending = s.pending := rfl

@[simp] theorem State.emit_out (o : Output) : (s.emit o).out = s.out ++ [o] := rfl
@[simp] theorem State.emit_stn (o : Output) : (s.emit o).stn = s.stn := rfl
@[simp] theorem State.emit_now (o : Output) : (s.emit o).now = s.now := rfl
@[simp] theorem State.emit_tp (o : Output) : (s.emit o).tp = s.tp := rfl
@[simp] theorem State.emit_is (o : Output) : (s.emit o).is = s.is := rfl
@[simp] theorem State.emit_lu (o : Output) : (s.emit o).lu = s.lu := rfl
@[simp] theorem State.emit_bu (o : Output) : (s.emit o).bu = s.bu := rfl
@[simp] theorem State.emit_ju (o : Output) : (s.emit o).ju = s.ju := rfl
@[simp] theorem State.emit_lrc (o : Output) : (s.emit o).lrc = s.lrc := rfl
@[simp] theorem State.emit_fu (o : Output) : (s.emit o).fu = s.fu := rfl
@[simp] theorem State.emit_gu (o : Output) : (s.emit o).gu = s.gu := rfl
@[simp] theorem State.emit_nlc (o : Output) : (s.emit o).nlc = s.nlc := rfl
@[simp] theorem State.emit_sc (o : Output) : (s.emit o).sc = s.sc := rfl
@[simp] theorem State.emit_deferred (o : Output) : (s.emit o).deferred = s.deferred := rfl
@[simp] theorem State.emit_freeIdx (o : Output) : (s.emit o).freeIdx = s.freeIdx := rfl
@[simp] theorem State.emit_pending (o : Output) : (s.emit o).pending = s.pending := rfl

@[simp] theorem State.defer_deferred (w : Waiting) : (s.defer w).deferred = s.deferred ++ [w] := rfl
@[simp] theorem State.defer_stn (w : Waiting) : (s.defer w).stn = s.stn := rfl
@[simp] theorem State.defer_now (w : Waiting) : (s.defer w).now = s.now := rfl
@[simp] theorem State.defer_tp (w : Waiting) : (s.defer w).tp = s.tp := rfl
@[simp] theorem State.defer_is (w : Waiting) : (s.defer w).is = s.is := rfl
@[simp] theorem State.defer_lu (w : Waiting) : (s.defer w).lu = s.lu := rfl
@[simp] theorem State.defer_bu (w : Waiting) : (s.defer w).bu = s.bu := rfl
@[simp] theorem State.defer_ju (w : Waiting) : (s.defer w).ju = s.ju := rfl
@[simp] theorem State.defer_lrc (w : Waiting) : (s.defer w).lrc = s.lrc := rfl
@[simp] theorem State.defer_fu (w : Waiting) : (s.defer w).fu = s.fu := rfl
@[simp] theorem State.defer_gu (w : Waiting) : (s.defer w).gu = s.gu := rfl
@[simp] theorem State.defer_nlc (w : Waiting) : (s.defer w).nlc = s.nlc := rfl
@[simp] theorem State.defer_sc (w : Waiting) : (s.defer w).sc = s.sc := rfl
@[simp] theorem State.defer_out (w : Waiting) : (s.defer w).out = s.out := rfl
@[simp] theorem State.defer_freeIdx (w : Waiting) : (s.defer w).freeIdx = s.freeIdx := rfl
@[simp] theorem State.defer_pending (w : Waiting) : (s.defer w).pending = s.pending := rfl

@[simp] theorem State.spend_freeIdx : (s.spend).freeIdx = s.freeIdx + 1 := rfl
@[simp] theorem State.spend_stn : (s.spend).stn = s.stn := rfl
@[simp] theorem State.spend_now : (s.spend).now = s.now := rfl
@[simp] theorem State.spend_tp : (s.spend).tp = s.tp := rfl
@[simp] theorem State.spend_is : (s.spend).is = s.is := rfl
@[simp] theorem State.spend_lu : (s.spend).lu = s.lu := rfl
@[simp] theorem State.spend_bu : (s.spend).bu = s.bu := rfl
@[simp] theorem State.spend_ju : (s.spend).ju = s.ju := rfl
@[simp] theorem State.spend_lrc : (s.spend).lrc = s.lrc := rfl
@[simp] theorem State.spend_fu : (s.spend).fu = s.fu := rfl
@[simp] theorem State.spend_gu : (s.spend).gu = s.gu := rfl
@[simp] theorem State.spend_nlc : (s.spend).nlc = s.nlc := rfl
@[simp] theorem State.spend_sc : (s.spend).sc = s.sc := rfl
@[simp] theorem State.spend_deferred : (s.spend).deferred = s.deferred := rfl
@[simp] theorem State.spend_out : (s.spend).out = s.out := rfl
@[simp] theorem State.spend_pending : (s.spend).pending = s.pending := rfl

@[simp] theorem State.recordC_tp (f : Frame) :
    (s.recordC f).tp = { s.tp with recordC := s.tp.recordC ++ [f] } := rfl
@[simp] theorem State.recordC_stn (f : Frame) : (s.recordC f).stn = s.stn := rfl
@[simp] theorem State.recordC_now (f : Frame) : (s.recordC f).now = s.now := rfl
@[simp] theorem State.recordC_is (f : Frame) : (s.recordC f).is = s.is := rfl
@[simp] theorem State.recordC_lu (f : Frame) : (s.recordC f).lu = s.lu := rfl
@[simp] theorem State.recordC_bu (f : Frame) : (s.recordC f).bu = s.bu := rfl
@[simp] theorem State.recordC_ju (f : Frame) : (s.recordC f).ju = s.ju := rfl
@[simp] theorem State.recordC_lrc (f : Frame) : (s.recordC f).lrc = s.lrc := rfl
@[simp] theorem State.recordC_fu (f : Frame) : (s.recordC f).fu = s.fu := rfl
@[simp] theorem State.recordC_gu (f : Frame) : (s.recordC f).gu = s.gu := rfl
@[simp] theorem State.recordC_nlc (f : Frame) : (s.recordC f).nlc = s.nlc := rfl
@[simp] theorem State.recordC_sc (f : Frame) : (s.recordC f).sc = s.sc := rfl
@[simp] theorem State.recordC_deferred (f : Frame) : (s.recordC f).deferred = s.deferred := rfl
@[simp] theorem State.recordC_out (f : Frame) : (s.recordC f).out = s.out := rfl
@[simp] theorem State.recordC_freeIdx (f : Frame) : (s.recordC f).freeIdx = s.freeIdx := rfl
@[simp] theorem State.recordC_pending (f : Frame) : (s.recordC f).pending = s.pending := rfl

end Sys2Proof.Machine
end

