-- ==== Sys2Proof/Laws/Frames.lean ====
section
/-!
SUPPORT. What each operation of the station leaves alone: one lemma for each, naming every part of the state that the
operation does not touch.
-/

namespace Sys2Proof.Machine

/-- A fold keeps what each of its steps keeps. -/
theorem foldl_keeps {α σ β : Type} (g : σ → β) (f : σ → α → σ) (h : ∀ s a, g (f s a) = g s) (l : List α) (s : σ) :
    g (l.foldl f s) = g s := by
  induction l generalizing s with
  | nil => rfl
  | cons a l ih => simp [ih, h]

@[simp] theorem State.handOver_frame (s : State) (f : Frame) :
    (State.handOver s f).stn = s.stn ∧ (State.handOver s f).now = s.now ∧ (State.handOver s f).is = s.is ∧
      (State.handOver s f).lu = s.lu ∧ (State.handOver s f).bu = s.bu ∧ (State.handOver s f).ju = s.ju ∧
      (State.handOver s f).lrc = s.lrc ∧ (State.handOver s f).fu = s.fu ∧ (State.handOver s f).gu = s.gu ∧
      (State.handOver s f).nlc = s.nlc ∧ (State.handOver s f).sc = s.sc ∧
      (State.handOver s f).deferred = s.deferred ∧ (State.handOver s f).out = s.out ∧
      (State.handOver s f).freeIdx = s.freeIdx ∧ (State.handOver s f).pending = s.pending := by
  unfold State.handOver
  simp

@[simp] theorem State.air_frame (m : AirMsg) (s : State) :
    (State.air m s).stn = s.stn ∧ (State.air m s).now = s.now ∧ (State.air m s).tp = s.tp ∧
      (State.air m s).is = s.is ∧ (State.air m s).lu = s.lu ∧ (State.air m s).bu = s.bu ∧ (State.air m s).ju = s.ju ∧
      (State.air m s).lrc = s.lrc ∧ (State.air m s).fu = s.fu ∧ (State.air m s).nlc = s.nlc ∧
      (State.air m s).sc = s.sc ∧ (State.air m s).deferred = s.deferred ∧ (State.air m s).freeIdx = s.freeIdx ∧
      (State.air m s).pending = s.pending := by
  unfold State.air; repeat' split
  all_goals simp

@[simp] theorem State.airSent_frame (s : State) :
    (State.airSent s).stn = s.stn ∧ (State.airSent s).now = s.now ∧ (State.airSent s).tp = s.tp ∧
      (State.airSent s).is = s.is ∧ (State.airSent s).lu = s.lu ∧ (State.airSent s).bu = s.bu ∧
      (State.airSent s).ju = s.ju ∧ (State.airSent s).lrc = s.lrc ∧ (State.airSent s).fu = s.fu ∧
      (State.airSent s).nlc = s.nlc ∧ (State.airSent s).sc = s.sc ∧ (State.airSent s).deferred = s.deferred ∧
      (State.airSent s).freeIdx = s.freeIdx ∧ (State.airSent s).pending = s.pending := by
  unfold State.airSent; repeat' split
  all_goals simp

@[simp] theorem State.dropGuest_frame (s : State) :
    (State.dropGuest s).stn = s.stn ∧ (State.dropGuest s).now = s.now ∧ (State.dropGuest s).tp = s.tp ∧
      (State.dropGuest s).is = s.is ∧ (State.dropGuest s).lu = s.lu ∧ (State.dropGuest s).bu = s.bu ∧
      (State.dropGuest s).ju = s.ju ∧ (State.dropGuest s).lrc = s.lrc ∧ (State.dropGuest s).fu = s.fu ∧
      (State.dropGuest s).nlc = s.nlc ∧ (State.dropGuest s).sc = s.sc ∧ (State.dropGuest s).deferred = s.deferred ∧
      (State.dropGuest s).out = s.out ∧ (State.dropGuest s).freeIdx = s.freeIdx ∧
      (State.dropGuest s).pending = s.pending := by
  unfold State.dropGuest
  simp

@[simp] theorem State.onClient_frame (i : Fin 128) (f : ClientEntry → ClientEntry) (s : State) :
    (State.onClient i f s).stn = s.stn ∧ (State.onClient i f s).now = s.now ∧ (State.onClient i f s).tp = s.tp ∧
      (State.onClient i f s).is = s.is ∧ (State.onClient i f s).lu = s.lu ∧ (State.onClient i f s).bu = s.bu ∧
      (State.onClient i f s).ju = s.ju ∧ (State.onClient i f s).lrc = s.lrc ∧ (State.onClient i f s).fu = s.fu ∧
      (State.onClient i f s).nlc = s.nlc ∧ (State.onClient i f s).sc = s.sc ∧
      (State.onClient i f s).deferred = s.deferred ∧ (State.onClient i f s).out = s.out ∧
      (State.onClient i f s).freeIdx = s.freeIdx ∧ (State.onClient i f s).pending = s.pending := by
  unfold State.onClient
  simp

@[simp] theorem State.takeClient_frame (i : Fin 128) (a : ClientAddr) (s : State) :
    (State.takeClient i a s).stn = s.stn ∧ (State.takeClient i a s).now = s.now ∧
      (State.takeClient i a s).tp = s.tp ∧ (State.takeClient i a s).is = s.is ∧ (State.takeClient i a s).lu = s.lu ∧
      (State.takeClient i a s).bu = s.bu ∧ (State.takeClient i a s).ju = s.ju ∧
      (State.takeClient i a s).lrc = s.lrc ∧ (State.takeClient i a s).fu = s.fu ∧
      (State.takeClient i a s).nlc = s.nlc ∧ (State.takeClient i a s).sc = s.sc ∧
      (State.takeClient i a s).deferred = s.deferred ∧ (State.takeClient i a s).freeIdx = s.freeIdx ∧
      (State.takeClient i a s).pending = s.pending := by
  unfold State.takeClient
  simp

@[simp] theorem State.join_frame (a : ClientAddr) (s : State) :
    (State.join a s).stn = s.stn ∧ (State.join a s).now = s.now ∧ (State.join a s).tp = s.tp ∧
      (State.join a s).is = s.is ∧ (State.join a s).lu = s.lu ∧ (State.join a s).bu = s.bu ∧
      (State.join a s).ju = s.ju ∧ (State.join a s).lrc = s.lrc ∧ (State.join a s).fu = s.fu ∧
      (State.join a s).nlc = s.nlc ∧ (State.join a s).sc = s.sc ∧ (State.join a s).deferred = s.deferred ∧
      (State.join a s).freeIdx = s.freeIdx ∧ (State.join a s).pending = s.pending := by
  unfold State.join; repeat' split
  all_goals simp

@[simp] theorem State.leave_frame (a : ClientAddr) (s : State) :
    (State.leave a s).stn = s.stn ∧ (State.leave a s).now = s.now ∧ (State.leave a s).tp = s.tp ∧
      (State.leave a s).is = s.is ∧ (State.leave a s).lu = s.lu ∧ (State.leave a s).bu = s.bu ∧
      (State.leave a s).ju = s.ju ∧ (State.leave a s).lrc = s.lrc ∧ (State.leave a s).fu = s.fu ∧
      (State.leave a s).nlc = s.nlc ∧ (State.leave a s).sc = s.sc ∧ (State.leave a s).deferred = s.deferred ∧
      (State.leave a s).out = s.out ∧ (State.leave a s).freeIdx = s.freeIdx ∧ (State.leave a s).pending = s.pending := by
  unfold State.leave; repeat' split
  all_goals simp

@[simp] theorem State.meter_frame (a : ClientAddr) (p : Packet) (s : State) :
    (State.meter a p s).2.stn = s.stn ∧ (State.meter a p s).2.now = s.now ∧ (State.meter a p s).2.tp = s.tp ∧
      (State.meter a p s).2.is = s.is ∧ (State.meter a p s).2.lu = s.lu ∧ (State.meter a p s).2.bu = s.bu ∧
      (State.meter a p s).2.ju = s.ju ∧ (State.meter a p s).2.lrc = s.lrc ∧ (State.meter a p s).2.fu = s.fu ∧
      (State.meter a p s).2.nlc = s.nlc ∧ (State.meter a p s).2.sc = s.sc ∧
      (State.meter a p s).2.deferred = s.deferred ∧ (State.meter a p s).2.out = s.out ∧
      (State.meter a p s).2.freeIdx = s.freeIdx ∧ (State.meter a p s).2.pending = s.pending := by
  simp only [State.meter]
  repeat' split
  all_goals simp

@[simp] theorem State.deliverGuest_frame (p : Packet) (s : State) :
    (State.deliverGuest p s).stn = s.stn ∧ (State.deliverGuest p s).now = s.now ∧
      (State.deliverGuest p s).tp = s.tp ∧ (State.deliverGuest p s).is = s.is ∧ (State.deliverGuest p s).lu = s.lu ∧
      (State.deliverGuest p s).bu = s.bu ∧ (State.deliverGuest p s).ju = s.ju ∧
      (State.deliverGuest p s).lrc = s.lrc ∧ (State.deliverGuest p s).fu = s.fu ∧
      (State.deliverGuest p s).nlc = s.nlc ∧ (State.deliverGuest p s).sc = s.sc ∧
      (State.deliverGuest p s).deferred = s.deferred ∧ (State.deliverGuest p s).freeIdx = s.freeIdx ∧
      (State.deliverGuest p s).pending = s.pending := by
  unfold State.deliverGuest; repeat' split
  all_goals simp

@[simp] theorem State.admitClient_frame (i : Fin 128) (s : State) :
    (State.admitClient i s).stn = s.stn ∧ (State.admitClient i s).now = s.now ∧ (State.admitClient i s).tp = s.tp ∧
      (State.admitClient i s).is = s.is ∧ (State.admitClient i s).lu = s.lu ∧ (State.admitClient i s).bu = s.bu ∧
      (State.admitClient i s).ju = s.ju ∧ (State.admitClient i s).lrc = s.lrc ∧ (State.admitClient i s).fu = s.fu ∧
      (State.admitClient i s).nlc = s.nlc ∧ (State.admitClient i s).sc = s.sc ∧ (State.admitClient i s).deferred = s.deferred ∧
      (State.admitClient i s).freeIdx = s.freeIdx ∧ (State.admitClient i s).pending = s.pending := by
  unfold State.admitClient
  simp

@[simp] theorem State.endCheck_frame (i : Fin 128) (r : CodeResult) (s : State) :
    (State.endCheck i r s).stn = s.stn ∧ (State.endCheck i r s).now = s.now ∧ (State.endCheck i r s).tp = s.tp ∧
      (State.endCheck i r s).is = s.is ∧ (State.endCheck i r s).lu = s.lu ∧ (State.endCheck i r s).bu = s.bu ∧
      (State.endCheck i r s).ju = s.ju ∧ (State.endCheck i r s).lrc = s.lrc ∧ (State.endCheck i r s).fu = s.fu ∧
      (State.endCheck i r s).nlc = s.nlc ∧ (State.endCheck i r s).sc = s.sc ∧
      (State.endCheck i r s).deferred = s.deferred ∧ (State.endCheck i r s).freeIdx = s.freeIdx ∧
      (State.endCheck i r s).pending = s.pending := by
  unfold State.endCheck
  simp

@[simp] theorem State.startCheck_frame (i : Fin 128) (c : GuestCode) (s : State) :
    (State.startCheck i c s).stn = s.stn ∧ (State.startCheck i c s).now = s.now ∧
      (State.startCheck i c s).is = s.is ∧ (State.startCheck i c s).lu = s.lu ∧ (State.startCheck i c s).bu = s.bu ∧
      (State.startCheck i c s).ju = s.ju ∧ (State.startCheck i c s).lrc = s.lrc ∧
      (State.startCheck i c s).fu = s.fu ∧ (State.startCheck i c s).nlc = s.nlc ∧
      (State.startCheck i c s).sc = s.sc ∧ (State.startCheck i c s).deferred = s.deferred ∧
      (State.startCheck i c s).freeIdx = s.freeIdx ∧ (State.startCheck i c s).pending = s.pending := by
  simp only [State.startCheck]
  repeat' split
  all_goals simp

@[simp] theorem State.enterCode_frame (a : ClientAddr) (chars : List Nat) (s : State) :
    (State.enterCode a chars s).stn = s.stn ∧ (State.enterCode a chars s).now = s.now ∧
      (State.enterCode a chars s).is = s.is ∧ (State.enterCode a chars s).lu = s.lu ∧
      (State.enterCode a chars s).bu = s.bu ∧ (State.enterCode a chars s).ju = s.ju ∧
      (State.enterCode a chars s).lrc = s.lrc ∧ (State.enterCode a chars s).fu = s.fu ∧
      (State.enterCode a chars s).nlc = s.nlc ∧ (State.enterCode a chars s).sc = s.sc ∧
      (State.enterCode a chars s).deferred = s.deferred ∧ (State.enterCode a chars s).freeIdx = s.freeIdx ∧
      (State.enterCode a chars s).pending = s.pending := by
  simp only [State.enterCode]
  repeat' split
  all_goals simp

@[simp] theorem State.answerCheck_frame (src : Station) (tag : Nat) (c : GuestCode) (s : State) :
    (State.answerCheck src tag c s).stn = s.stn ∧ (State.answerCheck src tag c s).now = s.now ∧
      (State.answerCheck src tag c s).is = s.is ∧ (State.answerCheck src tag c s).lu = s.lu ∧
      (State.answerCheck src tag c s).bu = s.bu ∧ (State.answerCheck src tag c s).ju = s.ju ∧
      (State.answerCheck src tag c s).lrc = s.lrc ∧ (State.answerCheck src tag c s).fu = s.fu ∧
      (State.answerCheck src tag c s).nlc = s.nlc ∧ (State.answerCheck src tag c s).sc = s.sc ∧
      (State.answerCheck src tag c s).deferred = s.deferred ∧ (State.answerCheck src tag c s).out = s.out ∧
      (State.answerCheck src tag c s).freeIdx = s.freeIdx ∧ (State.answerCheck src tag c s).pending = s.pending := by
  simp only [State.answerCheck]
  repeat' split
  all_goals simp

@[simp] theorem State.returnUse_frame (c : GuestCode) (s : State) :
    (State.returnUse c s).stn = s.stn ∧ (State.returnUse c s).now = s.now ∧ (State.returnUse c s).is = s.is ∧
      (State.returnUse c s).lu = s.lu ∧ (State.returnUse c s).bu = s.bu ∧ (State.returnUse c s).ju = s.ju ∧
      (State.returnUse c s).lrc = s.lrc ∧ (State.returnUse c s).fu = s.fu ∧ (State.returnUse c s).nlc = s.nlc ∧
      (State.returnUse c s).sc = s.sc ∧ (State.returnUse c s).deferred = s.deferred ∧
      (State.returnUse c s).out = s.out ∧ (State.returnUse c s).pending = s.pending := by
  simp only [State.returnUse]
  repeat' split
  all_goals simp

@[simp] theorem State.takeCodeAnswer_frame (src : Station) (tag : Nat) (c : GuestCode) (o : CodeOutcome) (s : State) :
    (State.takeCodeAnswer src tag c o s).stn = s.stn ∧ (State.takeCodeAnswer src tag c o s).now = s.now ∧
      (State.takeCodeAnswer src tag c o s).is = s.is ∧ (State.takeCodeAnswer src tag c o s).lu = s.lu ∧
      (State.takeCodeAnswer src tag c o s).bu = s.bu ∧ (State.takeCodeAnswer src tag c o s).ju = s.ju ∧
      (State.takeCodeAnswer src tag c o s).lrc = s.lrc ∧ (State.takeCodeAnswer src tag c o s).fu = s.fu ∧
      (State.takeCodeAnswer src tag c o s).nlc = s.nlc ∧ (State.takeCodeAnswer src tag c o s).sc = s.sc ∧
      (State.takeCodeAnswer src tag c o s).deferred = s.deferred ∧
      (State.takeCodeAnswer src tag c o s).pending = s.pending := by
  unfold State.takeCodeAnswer; repeat' split
  all_goals simp

@[simp] theorem State.checkExpired_frame (i : Fin 128) (s : State) :
    (State.checkExpired i s).stn = s.stn ∧ (State.checkExpired i s).now = s.now ∧
      (State.checkExpired i s).tp = s.tp ∧ (State.checkExpired i s).is = s.is ∧ (State.checkExpired i s).lu = s.lu ∧
      (State.checkExpired i s).bu = s.bu ∧ (State.checkExpired i s).ju = s.ju ∧
      (State.checkExpired i s).lrc = s.lrc ∧ (State.checkExpired i s).fu = s.fu ∧
      (State.checkExpired i s).nlc = s.nlc ∧ (State.checkExpired i s).sc = s.sc ∧
      (State.checkExpired i s).deferred = s.deferred ∧ (State.checkExpired i s).freeIdx = s.freeIdx ∧
      (State.checkExpired i s).pending = s.pending := by
  unfold State.checkExpired; repeat' split
  all_goals simp

@[simp] theorem State.endChecks_frame (p : ClientEntry → Bool) (s : State) :
    (State.endChecks p s).stn = s.stn ∧ (State.endChecks p s).now = s.now ∧ (State.endChecks p s).tp = s.tp ∧
      (State.endChecks p s).is = s.is ∧ (State.endChecks p s).lu = s.lu ∧ (State.endChecks p s).bu = s.bu ∧
      (State.endChecks p s).ju = s.ju ∧ (State.endChecks p s).lrc = s.lrc ∧ (State.endChecks p s).fu = s.fu ∧
      (State.endChecks p s).nlc = s.nlc ∧ (State.endChecks p s).sc = s.sc ∧
      (State.endChecks p s).deferred = s.deferred ∧ (State.endChecks p s).freeIdx = s.freeIdx ∧
      (State.endChecks p s).pending = s.pending := by
  unfold State.endChecks; generalize fins 128 = l
  induction l generalizing s with
  | nil => simp
  | cons a l ih => simp only [List.foldl_cons, ih]; split <;> simp

@[simp] theorem State.issuerAbsent_frame (n : Station) (s : State) :
    (State.issuerAbsent n s).stn = s.stn ∧ (State.issuerAbsent n s).now = s.now ∧
      (State.issuerAbsent n s).tp = s.tp ∧ (State.issuerAbsent n s).is = s.is ∧ (State.issuerAbsent n s).lu = s.lu ∧
      (State.issuerAbsent n s).bu = s.bu ∧ (State.issuerAbsent n s).ju = s.ju ∧
      (State.issuerAbsent n s).lrc = s.lrc ∧ (State.issuerAbsent n s).fu = s.fu ∧
      (State.issuerAbsent n s).nlc = s.nlc ∧ (State.issuerAbsent n s).sc = s.sc ∧
      (State.issuerAbsent n s).deferred = s.deferred ∧ (State.issuerAbsent n s).freeIdx = s.freeIdx ∧
      (State.issuerAbsent n s).pending = s.pending := by
  unfold State.issuerAbsent
  simp

@[simp] theorem State.admissionEnded_frame (i : Fin 128) (s : State) :
    (State.admissionEnded i s).stn = s.stn ∧ (State.admissionEnded i s).now = s.now ∧
      (State.admissionEnded i s).tp = s.tp ∧ (State.admissionEnded i s).is = s.is ∧
      (State.admissionEnded i s).lu = s.lu ∧ (State.admissionEnded i s).bu = s.bu ∧
      (State.admissionEnded i s).ju = s.ju ∧ (State.admissionEnded i s).lrc = s.lrc ∧
      (State.admissionEnded i s).fu = s.fu ∧ (State.admissionEnded i s).nlc = s.nlc ∧
      (State.admissionEnded i s).sc = s.sc ∧ (State.admissionEnded i s).deferred = s.deferred ∧
      (State.admissionEnded i s).freeIdx = s.freeIdx ∧ (State.admissionEnded i s).pending = s.pending := by
  unfold State.admissionEnded; repeat' split
  all_goals simp

@[simp] theorem State.blockEnded_frame (i : Fin 128) (s : State) :
    (State.blockEnded i s).stn = s.stn ∧ (State.blockEnded i s).now = s.now ∧ (State.blockEnded i s).tp = s.tp ∧
      (State.blockEnded i s).is = s.is ∧ (State.blockEnded i s).lu = s.lu ∧ (State.blockEnded i s).bu = s.bu ∧
      (State.blockEnded i s).ju = s.ju ∧ (State.blockEnded i s).lrc = s.lrc ∧ (State.blockEnded i s).fu = s.fu ∧
      (State.blockEnded i s).nlc = s.nlc ∧ (State.blockEnded i s).sc = s.sc ∧
      (State.blockEnded i s).deferred = s.deferred ∧ (State.blockEnded i s).freeIdx = s.freeIdx ∧
      (State.blockEnded i s).pending = s.pending := by
  unfold State.blockEnded; repeat' split
  all_goals simp

@[simp] theorem State.strike_frame (a : ClientAddr) (s : State) :
    (State.strike a s).stn = s.stn ∧ (State.strike a s).now = s.now ∧ (State.strike a s).tp = s.tp ∧
      (State.strike a s).is = s.is ∧ (State.strike a s).lu = s.lu ∧ (State.strike a s).bu = s.bu ∧
      (State.strike a s).ju = s.ju ∧ (State.strike a s).lrc = s.lrc ∧ (State.strike a s).fu = s.fu ∧
      (State.strike a s).nlc = s.nlc ∧ (State.strike a s).sc = s.sc ∧ (State.strike a s).deferred = s.deferred ∧
      (State.strike a s).freeIdx = s.freeIdx ∧ (State.strike a s).pending = s.pending := by
  unfold State.strike; repeat' split
  all_goals simp

@[simp] theorem State.evictAll_frame (s : State) :
    (State.evictAll s).stn = s.stn ∧ (State.evictAll s).now = s.now ∧ (State.evictAll s).tp = s.tp ∧
      (State.evictAll s).is = s.is ∧ (State.evictAll s).lu = s.lu ∧ (State.evictAll s).bu = s.bu ∧
      (State.evictAll s).ju = s.ju ∧ (State.evictAll s).lrc = s.lrc ∧ (State.evictAll s).fu = s.fu ∧
      (State.evictAll s).nlc = s.nlc ∧ (State.evictAll s).sc = s.sc ∧ (State.evictAll s).deferred = s.deferred ∧
      (State.evictAll s).freeIdx = s.freeIdx ∧ (State.evictAll s).pending = s.pending := by
  unfold State.evictAll; and_intros
  all_goals exact (foldl_keeps _ _ (by intro s a; split <;> simp) _ _).trans (by simp)

@[simp] theorem State.guestRestart_frame (s : State) :
    (State.guestRestart s).stn = s.stn ∧ (State.guestRestart s).now = s.now ∧ (State.guestRestart s).tp = s.tp ∧
      (State.guestRestart s).is = s.is ∧ (State.guestRestart s).lu = s.lu ∧ (State.guestRestart s).bu = s.bu ∧
      (State.guestRestart s).ju = s.ju ∧ (State.guestRestart s).lrc = s.lrc ∧ (State.guestRestart s).fu = s.fu ∧
      (State.guestRestart s).nlc = s.nlc ∧ (State.guestRestart s).sc = s.sc ∧
      (State.guestRestart s).deferred = s.deferred ∧ (State.guestRestart s).freeIdx = s.freeIdx ∧
      (State.guestRestart s).pending = s.pending := by
  unfold State.guestRestart; repeat' split
  all_goals simp

@[simp] theorem State.dropMany_frame (cls : OriginClass) (k : Nat) (s : State) :
    (State.dropMany cls k s).stn = s.stn ∧ (State.dropMany cls k s).now = s.now ∧
      (State.dropMany cls k s).tp = s.tp ∧ (State.dropMany cls k s).is = s.is ∧ (State.dropMany cls k s).lu = s.lu ∧
      (State.dropMany cls k s).bu = s.bu ∧ (State.dropMany cls k s).ju = s.ju ∧
      (State.dropMany cls k s).lrc = s.lrc ∧ (State.dropMany cls k s).gu = s.gu ∧
      (State.dropMany cls k s).nlc = s.nlc ∧ (State.dropMany cls k s).sc = s.sc ∧
      (State.dropMany cls k s).deferred = s.deferred ∧ (State.dropMany cls k s).out = s.out ∧
      (State.dropMany cls k s).freeIdx = s.freeIdx ∧ (State.dropMany cls k s).pending = s.pending := by
  unfold State.dropMany; repeat' split
  all_goals simp

@[simp] theorem State.dropPacket_frame (cls : OriginClass) (s : State) :
    (State.dropPacket cls s).stn = s.stn ∧ (State.dropPacket cls s).now = s.now ∧
      (State.dropPacket cls s).tp = s.tp ∧ (State.dropPacket cls s).is = s.is ∧ (State.dropPacket cls s).lu = s.lu ∧
      (State.dropPacket cls s).bu = s.bu ∧ (State.dropPacket cls s).ju = s.ju ∧
      (State.dropPacket cls s).lrc = s.lrc ∧ (State.dropPacket cls s).gu = s.gu ∧
      (State.dropPacket cls s).nlc = s.nlc ∧ (State.dropPacket cls s).sc = s.sc ∧
      (State.dropPacket cls s).deferred = s.deferred ∧ (State.dropPacket cls s).out = s.out ∧
      (State.dropPacket cls s).freeIdx = s.freeIdx ∧ (State.dropPacket cls s).pending = s.pending := by
  unfold State.dropPacket
  simp

@[simp] theorem State.dropNoCarrier_frame (s : State) :
    (State.dropNoCarrier s).stn = s.stn ∧ (State.dropNoCarrier s).now = s.now ∧ (State.dropNoCarrier s).tp = s.tp ∧
      (State.dropNoCarrier s).is = s.is ∧ (State.dropNoCarrier s).lu = s.lu ∧ (State.dropNoCarrier s).bu = s.bu ∧
      (State.dropNoCarrier s).ju = s.ju ∧ (State.dropNoCarrier s).lrc = s.lrc ∧ (State.dropNoCarrier s).gu = s.gu ∧
      (State.dropNoCarrier s).nlc = s.nlc ∧ (State.dropNoCarrier s).sc = s.sc ∧
      (State.dropNoCarrier s).deferred = s.deferred ∧ (State.dropNoCarrier s).out = s.out ∧
      (State.dropNoCarrier s).freeIdx = s.freeIdx ∧ (State.dropNoCarrier s).pending = s.pending := by
  unfold State.dropNoCarrier
  simp

@[simp] theorem State.relearn_frame (n : Station) (s : State) :
    (State.relearn n s).stn = s.stn ∧ (State.relearn n s).now = s.now ∧ (State.relearn n s).tp = s.tp ∧
      (State.relearn n s).is = s.is ∧ (State.relearn n s).lu = s.lu ∧ (State.relearn n s).bu = s.bu ∧
      (State.relearn n s).ju = s.ju ∧ (State.relearn n s).lrc = s.lrc ∧ (State.relearn n s).gu = s.gu ∧
      (State.relearn n s).nlc = s.nlc ∧ (State.relearn n s).sc = s.sc ∧ (State.relearn n s).deferred = s.deferred ∧
      (State.relearn n s).out = s.out ∧ (State.relearn n s).freeIdx = s.freeIdx ∧
      (State.relearn n s).pending = s.pending := by
  unfold State.relearn; repeat' split
  all_goals simp

@[simp] theorem State.relayRefused_frame (dst : Station) (tag : Nat) (cls : OriginClass) (p : Packet) (k : Nat) (r : HandResult) (s : State) :
    (State.relayRefused dst tag cls p k r s).stn = s.stn ∧ (State.relayRefused dst tag cls p k r s).now = s.now ∧
      (State.relayRefused dst tag cls p k r s).is = s.is ∧ (State.relayRefused dst tag cls p k r s).lu = s.lu ∧
      (State.relayRefused dst tag cls p k r s).bu = s.bu ∧ (State.relayRefused dst tag cls p k r s).ju = s.ju ∧
      (State.relayRefused dst tag cls p k r s).lrc = s.lrc ∧ (State.relayRefused dst tag cls p k r s).gu = s.gu ∧
      (State.relayRefused dst tag cls p k r s).nlc = s.nlc ∧ (State.relayRefused dst tag cls p k r s).sc = s.sc ∧
      (State.relayRefused dst tag cls p k r s).deferred = s.deferred ∧
      (State.relayRefused dst tag cls p k r s).out = s.out ∧
      (State.relayRefused dst tag cls p k r s).freeIdx = s.freeIdx ∧
      (State.relayRefused dst tag cls p k r s).pending = s.pending := by
  unfold State.relayRefused; repeat' split
  all_goals simp

@[simp] theorem State.relayParts_frame (dst : Station) (tag : Nat) (cls : OriginClass) (p : Packet) (x0 : Nat) (x1 : Nat) (s : State) :
    (State.relayParts dst tag cls p x0 x1 s).stn = s.stn ∧ (State.relayParts dst tag cls p x0 x1 s).now = s.now ∧
      (State.relayParts dst tag cls p x0 x1 s).is = s.is ∧ (State.relayParts dst tag cls p x0 x1 s).lu = s.lu ∧
      (State.relayParts dst tag cls p x0 x1 s).bu = s.bu ∧ (State.relayParts dst tag cls p x0 x1 s).ju = s.ju ∧
      (State.relayParts dst tag cls p x0 x1 s).lrc = s.lrc ∧ (State.relayParts dst tag cls p x0 x1 s).gu = s.gu ∧
      (State.relayParts dst tag cls p x0 x1 s).nlc = s.nlc ∧ (State.relayParts dst tag cls p x0 x1 s).sc = s.sc ∧
      (State.relayParts dst tag cls p x0 x1 s).deferred = s.deferred ∧
      (State.relayParts dst tag cls p x0 x1 s).out = s.out ∧
      (State.relayParts dst tag cls p x0 x1 s).freeIdx = s.freeIdx ∧
      (State.relayParts dst tag cls p x0 x1 s).pending = s.pending := by
  induction x0 generalizing x1 s with
  | zero => simp [State.relayParts]
  | succ m ih => simp only [State.relayParts]; split <;> simp [ih]

@[simp] theorem State.relayTo_frame (n : Station) (cls : OriginClass) (p : Packet) (s : State) :
    (State.relayTo n cls p s).stn = s.stn ∧ (State.relayTo n cls p s).now = s.now ∧
      (State.relayTo n cls p s).is = s.is ∧ (State.relayTo n cls p s).lu = s.lu ∧
      (State.relayTo n cls p s).bu = s.bu ∧ (State.relayTo n cls p s).ju = s.ju ∧
      (State.relayTo n cls p s).lrc = s.lrc ∧ (State.relayTo n cls p s).gu = s.gu ∧
      (State.relayTo n cls p s).nlc = s.nlc ∧ (State.relayTo n cls p s).sc = s.sc ∧
      (State.relayTo n cls p s).deferred = s.deferred ∧ (State.relayTo n cls p s).out = s.out ∧
      (State.relayTo n cls p s).freeIdx = s.freeIdx ∧ (State.relayTo n cls p s).pending = s.pending := by
  unfold State.relayTo
  simp

@[simp] theorem State.offerForward_frame (s : State) :
    (State.offerForward s).stn = s.stn ∧ (State.offerForward s).now = s.now ∧ (State.offerForward s).is = s.is ∧
      (State.offerForward s).lu = s.lu ∧ (State.offerForward s).bu = s.bu ∧ (State.offerForward s).ju = s.ju ∧
      (State.offerForward s).lrc = s.lrc ∧ (State.offerForward s).gu = s.gu ∧ (State.offerForward s).nlc = s.nlc ∧
      (State.offerForward s).sc = s.sc ∧ (State.offerForward s).deferred = s.deferred ∧
      (State.offerForward s).out = s.out ∧ (State.offerForward s).freeIdx = s.freeIdx ∧
      (State.offerForward s).pending = s.pending := by
  simp only [State.offerForward]
  repeat' split
  all_goals simp

@[simp] theorem State.pendingAbsent_frame (n : Station) (s : State) :
    (State.pendingAbsent n s).stn = s.stn ∧ (State.pendingAbsent n s).now = s.now ∧
      (State.pendingAbsent n s).tp = s.tp ∧ (State.pendingAbsent n s).is = s.is ∧
      (State.pendingAbsent n s).lu = s.lu ∧ (State.pendingAbsent n s).bu = s.bu ∧
      (State.pendingAbsent n s).ju = s.ju ∧ (State.pendingAbsent n s).lrc = s.lrc ∧
      (State.pendingAbsent n s).gu = s.gu ∧ (State.pendingAbsent n s).nlc = s.nlc ∧
      (State.pendingAbsent n s).sc = s.sc ∧ (State.pendingAbsent n s).deferred = s.deferred ∧
      (State.pendingAbsent n s).out = s.out ∧ (State.pendingAbsent n s).freeIdx = s.freeIdx ∧
      (State.pendingAbsent n s).pending = s.pending := by
  unfold State.pendingAbsent
  simp

@[simp] theorem State.returnRelay_frame (w : Withdrawn) (s : State) :
    (State.returnRelay w s).stn = s.stn ∧ (State.returnRelay w s).now = s.now ∧ (State.returnRelay w s).tp = s.tp ∧
      (State.returnRelay w s).is = s.is ∧ (State.returnRelay w s).lu = s.lu ∧ (State.returnRelay w s).bu = s.bu ∧
      (State.returnRelay w s).ju = s.ju ∧ (State.returnRelay w s).lrc = s.lrc ∧ (State.returnRelay w s).gu = s.gu ∧
      (State.returnRelay w s).nlc = s.nlc ∧ (State.returnRelay w s).sc = s.sc ∧
      (State.returnRelay w s).deferred = s.deferred ∧ (State.returnRelay w s).out = s.out ∧
      (State.returnRelay w s).freeIdx = s.freeIdx ∧ (State.returnRelay w s).pending = s.pending := by
  simp only [State.returnRelay]
  repeat' split
  all_goals simp

@[simp] theorem State.returnRelays_frame (q : List Frame) (s : State) :
    (State.returnRelays q s).stn = s.stn ∧ (State.returnRelays q s).now = s.now ∧
      (State.returnRelays q s).tp = s.tp ∧ (State.returnRelays q s).is = s.is ∧ (State.returnRelays q s).lu = s.lu ∧
      (State.returnRelays q s).bu = s.bu ∧ (State.returnRelays q s).ju = s.ju ∧
      (State.returnRelays q s).lrc = s.lrc ∧ (State.returnRelays q s).gu = s.gu ∧
      (State.returnRelays q s).nlc = s.nlc ∧ (State.returnRelays q s).sc = s.sc ∧
      (State.returnRelays q s).deferred = s.deferred ∧ (State.returnRelays q s).out = s.out ∧
      (State.returnRelays q s).freeIdx = s.freeIdx ∧ (State.returnRelays q s).pending = s.pending := by
  unfold State.returnRelays; and_intros
  all_goals exact foldl_keeps _ _ (by intro s a; simp) _ _

@[simp] theorem State.kickUplink_frame (s : State) :
    (State.kickUplink s).stn = s.stn ∧ (State.kickUplink s).now = s.now ∧ (State.kickUplink s).tp = s.tp ∧
      (State.kickUplink s).is = s.is ∧ (State.kickUplink s).lu = s.lu ∧ (State.kickUplink s).bu = s.bu ∧
      (State.kickUplink s).ju = s.ju ∧ (State.kickUplink s).lrc = s.lrc ∧ (State.kickUplink s).gu = s.gu ∧
      (State.kickUplink s).nlc = s.nlc ∧ (State.kickUplink s).sc = s.sc ∧
      (State.kickUplink s).deferred = s.deferred ∧ (State.kickUplink s).freeIdx = s.freeIdx ∧
      (State.kickUplink s).pending = s.pending := by
  simp only [State.kickUplink]
  repeat' split
  all_goals simp

@[simp] theorem State.enqueueUplink_frame (cls : OriginClass) (p : Packet) (s : State) :
    (State.enqueueUplink cls p s).stn = s.stn ∧ (State.enqueueUplink cls p s).now = s.now ∧
      (State.enqueueUplink cls p s).tp = s.tp ∧ (State.enqueueUplink cls p s).is = s.is ∧
      (State.enqueueUplink cls p s).lu = s.lu ∧ (State.enqueueUplink cls p s).bu = s.bu ∧
      (State.enqueueUplink cls p s).ju = s.ju ∧ (State.enqueueUplink cls p s).lrc = s.lrc ∧
      (State.enqueueUplink cls p s).gu = s.gu ∧ (State.enqueueUplink cls p s).nlc = s.nlc ∧
      (State.enqueueUplink cls p s).sc = s.sc ∧ (State.enqueueUplink cls p s).deferred = s.deferred ∧
      (State.enqueueUplink cls p s).freeIdx = s.freeIdx ∧ (State.enqueueUplink cls p s).pending = s.pending := by
  unfold State.enqueueUplink; repeat' split
  all_goals simp

@[simp] theorem State.emptyUplink_frame (s : State) :
    (State.emptyUplink s).stn = s.stn ∧ (State.emptyUplink s).now = s.now ∧ (State.emptyUplink s).tp = s.tp ∧
      (State.emptyUplink s).is = s.is ∧ (State.emptyUplink s).lu = s.lu ∧ (State.emptyUplink s).bu = s.bu ∧
      (State.emptyUplink s).ju = s.ju ∧ (State.emptyUplink s).lrc = s.lrc ∧ (State.emptyUplink s).gu = s.gu ∧
      (State.emptyUplink s).nlc = s.nlc ∧ (State.emptyUplink s).sc = s.sc ∧
      (State.emptyUplink s).deferred = s.deferred ∧ (State.emptyUplink s).out = s.out ∧
      (State.emptyUplink s).freeIdx = s.freeIdx ∧ (State.emptyUplink s).pending = s.pending := by
  unfold State.emptyUplink
  simp

@[simp] theorem State.creditWindow_frame (s : State) :
    (State.creditWindow s).stn = s.stn ∧ (State.creditWindow s).now = s.now ∧ (State.creditWindow s).tp = s.tp ∧
      (State.creditWindow s).is = s.is ∧ (State.creditWindow s).lu = s.lu ∧ (State.creditWindow s).bu = s.bu ∧
      (State.creditWindow s).ju = s.ju ∧ (State.creditWindow s).lrc = s.lrc ∧ (State.creditWindow s).gu = s.gu ∧
      (State.creditWindow s).nlc = s.nlc ∧ (State.creditWindow s).sc = s.sc ∧
      (State.creditWindow s).deferred = s.deferred ∧ (State.creditWindow s).freeIdx = s.freeIdx ∧
      (State.creditWindow s).pending = s.pending := by
  unfold State.creditWindow
  simp

@[simp] theorem State.uplinkEnded_frame (s : State) :
    (State.uplinkEnded s).stn = s.stn ∧ (State.uplinkEnded s).now = s.now ∧ (State.uplinkEnded s).tp = s.tp ∧
      (State.uplinkEnded s).is = s.is ∧ (State.uplinkEnded s).lu = s.lu ∧ (State.uplinkEnded s).bu = s.bu ∧
      (State.uplinkEnded s).ju = s.ju ∧ (State.uplinkEnded s).lrc = s.lrc ∧ (State.uplinkEnded s).gu = s.gu ∧
      (State.uplinkEnded s).nlc = s.nlc ∧ (State.uplinkEnded s).sc = s.sc ∧
      (State.uplinkEnded s).deferred = s.deferred ∧ (State.uplinkEnded s).freeIdx = s.freeIdx ∧
      (State.uplinkEnded s).pending = s.pending := by
  unfold State.uplinkEnded
  simp

@[simp] theorem State.linkReport_frame (up : Bool) (rate : LinkRate) (s : State) :
    (State.linkReport up rate s).stn = s.stn ∧ (State.linkReport up rate s).now = s.now ∧
      (State.linkReport up rate s).tp = s.tp ∧ (State.linkReport up rate s).is = s.is ∧
      (State.linkReport up rate s).lu = s.lu ∧ (State.linkReport up rate s).bu = s.bu ∧
      (State.linkReport up rate s).ju = s.ju ∧ (State.linkReport up rate s).lrc = s.lrc ∧
      (State.linkReport up rate s).gu = s.gu ∧ (State.linkReport up rate s).nlc = s.nlc ∧
      (State.linkReport up rate s).sc = s.sc ∧ (State.linkReport up rate s).deferred = s.deferred ∧
      (State.linkReport up rate s).freeIdx = s.freeIdx ∧ (State.linkReport up rate s).pending = s.pending := by
  simp only [State.linkReport]
  repeat' split
  all_goals simp

@[simp] theorem State.toTill_frame (cls : OriginClass) (p : Packet) (s : State) :
    (State.toTill cls p s).stn = s.stn ∧ (State.toTill cls p s).now = s.now ∧ (State.toTill cls p s).tp = s.tp ∧
      (State.toTill cls p s).is = s.is ∧ (State.toTill cls p s).lu = s.lu ∧ (State.toTill cls p s).bu = s.bu ∧
      (State.toTill cls p s).ju = s.ju ∧ (State.toTill cls p s).lrc = s.lrc ∧ (State.toTill cls p s).gu = s.gu ∧
      (State.toTill cls p s).nlc = s.nlc ∧ (State.toTill cls p s).sc = s.sc ∧
      (State.toTill cls p s).deferred = s.deferred ∧ (State.toTill cls p s).freeIdx = s.freeIdx ∧
      (State.toTill cls p s).pending = s.pending := by
  unfold State.toTill; repeat' split
  all_goals simp

@[simp] theorem State.toStation_frame (from_ : Entry) (n : Station) (cls : OriginClass) (p : Packet) (s : State) :
    (State.toStation from_ n cls p s).stn = s.stn ∧ (State.toStation from_ n cls p s).now = s.now ∧
      (State.toStation from_ n cls p s).is = s.is ∧ (State.toStation from_ n cls p s).lu = s.lu ∧
      (State.toStation from_ n cls p s).bu = s.bu ∧ (State.toStation from_ n cls p s).ju = s.ju ∧
      (State.toStation from_ n cls p s).lrc = s.lrc ∧ (State.toStation from_ n cls p s).gu = s.gu ∧
      (State.toStation from_ n cls p s).nlc = s.nlc ∧ (State.toStation from_ n cls p s).sc = s.sc ∧
      (State.toStation from_ n cls p s).deferred = s.deferred ∧ (State.toStation from_ n cls p s).out = s.out ∧
      (State.toStation from_ n cls p s).freeIdx = s.freeIdx ∧ (State.toStation from_ n cls p s).pending = s.pending := by
  unfold State.toStation; repeat' split
  all_goals simp

@[simp] theorem State.toCarrier_frame (from_ : Entry) (cls : OriginClass) (p : Packet) (s : State) :
    (State.toCarrier from_ cls p s).stn = s.stn ∧ (State.toCarrier from_ cls p s).now = s.now ∧
      (State.toCarrier from_ cls p s).is = s.is ∧ (State.toCarrier from_ cls p s).lu = s.lu ∧
      (State.toCarrier from_ cls p s).bu = s.bu ∧ (State.toCarrier from_ cls p s).ju = s.ju ∧
      (State.toCarrier from_ cls p s).lrc = s.lrc ∧ (State.toCarrier from_ cls p s).gu = s.gu ∧
      (State.toCarrier from_ cls p s).nlc = s.nlc ∧ (State.toCarrier from_ cls p s).sc = s.sc ∧
      (State.toCarrier from_ cls p s).deferred = s.deferred ∧ (State.toCarrier from_ cls p s).freeIdx = s.freeIdx ∧
      (State.toCarrier from_ cls p s).pending = s.pending := by
  unfold State.toCarrier; repeat' split
  all_goals simp

@[simp] theorem State.route_frame (from_ : Entry) (cls : OriginClass) (p : Packet) (s : State) :
    (State.route from_ cls p s).stn = s.stn ∧ (State.route from_ cls p s).now = s.now ∧
      (State.route from_ cls p s).is = s.is ∧ (State.route from_ cls p s).lu = s.lu ∧
      (State.route from_ cls p s).bu = s.bu ∧ (State.route from_ cls p s).ju = s.ju ∧
      (State.route from_ cls p s).lrc = s.lrc ∧ (State.route from_ cls p s).nlc = s.nlc ∧
      (State.route from_ cls p s).sc = s.sc ∧ (State.route from_ cls p s).deferred = s.deferred ∧
      (State.route from_ cls p s).freeIdx = s.freeIdx ∧ (State.route from_ cls p s).pending = s.pending := by
  unfold State.route; repeat' split
  all_goals simp

@[simp] theorem State.setReasm_frame (i : Fin 8) (e : Option Reasm) (s : State) :
    (State.setReasm i e s).stn = s.stn ∧ (State.setReasm i e s).now = s.now ∧ (State.setReasm i e s).tp = s.tp ∧
      (State.setReasm i e s).is = s.is ∧ (State.setReasm i e s).lu = s.lu ∧ (State.setReasm i e s).bu = s.bu ∧
      (State.setReasm i e s).ju = s.ju ∧ (State.setReasm i e s).lrc = s.lrc ∧ (State.setReasm i e s).gu = s.gu ∧
      (State.setReasm i e s).nlc = s.nlc ∧ (State.setReasm i e s).sc = s.sc ∧
      (State.setReasm i e s).deferred = s.deferred ∧ (State.setReasm i e s).out = s.out ∧
      (State.setReasm i e s).freeIdx = s.freeIdx ∧ (State.setReasm i e s).pending = s.pending := by
  unfold State.setReasm
  simp

@[simp] theorem State.forgetMark_frame (src : Station) (tag : Nat) (s : State) :
    (State.forgetMark src tag s).stn = s.stn ∧ (State.forgetMark src tag s).now = s.now ∧
      (State.forgetMark src tag s).tp = s.tp ∧ (State.forgetMark src tag s).is = s.is ∧
      (State.forgetMark src tag s).lu = s.lu ∧ (State.forgetMark src tag s).bu = s.bu ∧
      (State.forgetMark src tag s).ju = s.ju ∧ (State.forgetMark src tag s).lrc = s.lrc ∧
      (State.forgetMark src tag s).gu = s.gu ∧ (State.forgetMark src tag s).nlc = s.nlc ∧
      (State.forgetMark src tag s).sc = s.sc ∧ (State.forgetMark src tag s).deferred = s.deferred ∧
      (State.forgetMark src tag s).out = s.out ∧ (State.forgetMark src tag s).freeIdx = s.freeIdx ∧
      (State.forgetMark src tag s).pending = s.pending := by
  unfold State.forgetMark
  simp

@[simp] theorem State.markDropped_frame (src : Station) (tag n last : Nat) (s : State) :
    (State.markDropped src tag n last s).stn = s.stn ∧ (State.markDropped src tag n last s).now = s.now ∧
      (State.markDropped src tag n last s).tp = s.tp ∧ (State.markDropped src tag n last s).is = s.is ∧
      (State.markDropped src tag n last s).lu = s.lu ∧ (State.markDropped src tag n last s).bu = s.bu ∧
      (State.markDropped src tag n last s).ju = s.ju ∧ (State.markDropped src tag n last s).lrc = s.lrc ∧
      (State.markDropped src tag n last s).gu = s.gu ∧ (State.markDropped src tag n last s).nlc = s.nlc ∧
      (State.markDropped src tag n last s).sc = s.sc ∧ (State.markDropped src tag n last s).deferred = s.deferred ∧
      (State.markDropped src tag n last s).out = s.out ∧ (State.markDropped src tag n last s).freeIdx = s.freeIdx ∧
      (State.markDropped src tag n last s).pending = s.pending := by
  unfold State.markDropped
  simp

@[simp] theorem State.countRelay_frame (src : Station) (tag n k : Nat) (cls : OriginClass) (s : State) :
    (State.countRelay src tag n k cls s).stn = s.stn ∧ (State.countRelay src tag n k cls s).now = s.now ∧
      (State.countRelay src tag n k cls s).tp = s.tp ∧ (State.countRelay src tag n k cls s).is = s.is ∧
      (State.countRelay src tag n k cls s).lu = s.lu ∧ (State.countRelay src tag n k cls s).bu = s.bu ∧
      (State.countRelay src tag n k cls s).ju = s.ju ∧ (State.countRelay src tag n k cls s).lrc = s.lrc ∧
      (State.countRelay src tag n k cls s).gu = s.gu ∧ (State.countRelay src tag n k cls s).nlc = s.nlc ∧
      (State.countRelay src tag n k cls s).sc = s.sc ∧ (State.countRelay src tag n k cls s).deferred = s.deferred ∧
      (State.countRelay src tag n k cls s).out = s.out ∧ (State.countRelay src tag n k cls s).freeIdx = s.freeIdx ∧
      (State.countRelay src tag n k cls s).pending = s.pending := by
  unfold State.countRelay; repeat' split
  all_goals simp

@[simp] theorem State.discardReasm_frame (i : Fin 8) (e : Reasm) (s : State) :
    (State.discardReasm i e s).stn = s.stn ∧ (State.discardReasm i e s).now = s.now ∧
      (State.discardReasm i e s).tp = s.tp ∧ (State.discardReasm i e s).is = s.is ∧
      (State.discardReasm i e s).lu = s.lu ∧ (State.discardReasm i e s).bu = s.bu ∧
      (State.discardReasm i e s).ju = s.ju ∧ (State.discardReasm i e s).lrc = s.lrc ∧
      (State.discardReasm i e s).gu = s.gu ∧ (State.discardReasm i e s).nlc = s.nlc ∧
      (State.discardReasm i e s).sc = s.sc ∧ (State.discardReasm i e s).deferred = s.deferred ∧
      (State.discardReasm i e s).out = s.out ∧ (State.discardReasm i e s).freeIdx = s.freeIdx ∧
      (State.discardReasm i e s).pending = s.pending := by
  unfold State.discardReasm
  simp

@[simp] theorem State.takeFirstRelay_frame (src : Station) (tag : Nat) (p : RelayPart) (s : State) :
    (State.takeFirstRelay src tag p s).stn = s.stn ∧ (State.takeFirstRelay src tag p s).now = s.now ∧
      (State.takeFirstRelay src tag p s).tp = s.tp ∧ (State.takeFirstRelay src tag p s).is = s.is ∧
      (State.takeFirstRelay src tag p s).lu = s.lu ∧ (State.takeFirstRelay src tag p s).bu = s.bu ∧
      (State.takeFirstRelay src tag p s).ju = s.ju ∧ (State.takeFirstRelay src tag p s).lrc = s.lrc ∧
      (State.takeFirstRelay src tag p s).gu = s.gu ∧ (State.takeFirstRelay src tag p s).nlc = s.nlc ∧
      (State.takeFirstRelay src tag p s).sc = s.sc ∧ (State.takeFirstRelay src tag p s).deferred = s.deferred ∧
      (State.takeFirstRelay src tag p s).out = s.out ∧ (State.takeFirstRelay src tag p s).freeIdx = s.freeIdx ∧
      (State.takeFirstRelay src tag p s).pending = s.pending := by
  unfold State.takeFirstRelay; repeat' split
  all_goals simp

@[simp] theorem State.takeLaterRelay_frame (src : Station) (tag : Nat) (p : RelayPart) (s : State) :
    (State.takeLaterRelay src tag p s).stn = s.stn ∧ (State.takeLaterRelay src tag p s).now = s.now ∧
      (State.takeLaterRelay src tag p s).is = s.is ∧ (State.takeLaterRelay src tag p s).lu = s.lu ∧
      (State.takeLaterRelay src tag p s).bu = s.bu ∧ (State.takeLaterRelay src tag p s).ju = s.ju ∧
      (State.takeLaterRelay src tag p s).lrc = s.lrc ∧ (State.takeLaterRelay src tag p s).nlc = s.nlc ∧
      (State.takeLaterRelay src tag p s).sc = s.sc ∧ (State.takeLaterRelay src tag p s).deferred = s.deferred ∧
      (State.takeLaterRelay src tag p s).freeIdx = s.freeIdx ∧
      (State.takeLaterRelay src tag p s).pending = s.pending := by
  unfold State.takeLaterRelay; repeat' split
  all_goals simp

@[simp] theorem State.takeRelay_frame (src : Station) (tag : Nat) (p : RelayPart) (s : State) :
    (State.takeRelay src tag p s).stn = s.stn ∧ (State.takeRelay src tag p s).now = s.now ∧
      (State.takeRelay src tag p s).is = s.is ∧ (State.takeRelay src tag p s).lu = s.lu ∧
      (State.takeRelay src tag p s).bu = s.bu ∧ (State.takeRelay src tag p s).ju = s.ju ∧
      (State.takeRelay src tag p s).lrc = s.lrc ∧ (State.takeRelay src tag p s).nlc = s.nlc ∧
      (State.takeRelay src tag p s).sc = s.sc ∧ (State.takeRelay src tag p s).deferred = s.deferred ∧
      (State.takeRelay src tag p s).freeIdx = s.freeIdx ∧ (State.takeRelay src tag p s).pending = s.pending := by
  simp only [State.takeRelay]
  repeat' split
  all_goals simp

@[simp] theorem State.reasmExpired_frame (i : Fin 8) (s : State) :
    (State.reasmExpired i s).stn = s.stn ∧ (State.reasmExpired i s).now = s.now ∧
      (State.reasmExpired i s).tp = s.tp ∧ (State.reasmExpired i s).is = s.is ∧ (State.reasmExpired i s).lu = s.lu ∧
      (State.reasmExpired i s).bu = s.bu ∧ (State.reasmExpired i s).ju = s.ju ∧
      (State.reasmExpired i s).lrc = s.lrc ∧ (State.reasmExpired i s).gu = s.gu ∧
      (State.reasmExpired i s).nlc = s.nlc ∧ (State.reasmExpired i s).sc = s.sc ∧
      (State.reasmExpired i s).deferred = s.deferred ∧ (State.reasmExpired i s).out = s.out ∧
      (State.reasmExpired i s).freeIdx = s.freeIdx ∧ (State.reasmExpired i s).pending = s.pending := by
  unfold State.reasmExpired; repeat' split
  all_goals simp

@[simp] theorem State.installRoutes_frame (r : SetupRecord) (s : State) :
    (State.installRoutes r s).stn = s.stn ∧ (State.installRoutes r s).now = s.now ∧
      (State.installRoutes r s).tp = s.tp ∧ (State.installRoutes r s).is = s.is ∧
      (State.installRoutes r s).lu = s.lu ∧ (State.installRoutes r s).bu = s.bu ∧
      (State.installRoutes r s).ju = s.ju ∧ (State.installRoutes r s).lrc = s.lrc ∧
      (State.installRoutes r s).gu = s.gu ∧ (State.installRoutes r s).nlc = s.nlc ∧
      (State.installRoutes r s).sc = s.sc ∧ (State.installRoutes r s).deferred = s.deferred ∧
      (State.installRoutes r s).out = s.out ∧ (State.installRoutes r s).freeIdx = s.freeIdx ∧
      (State.installRoutes r s).pending = s.pending := by
  unfold State.installRoutes
  simp

@[simp] theorem State.clearRoutes_frame (s : State) :
    (State.clearRoutes s).stn = s.stn ∧ (State.clearRoutes s).now = s.now ∧ (State.clearRoutes s).tp = s.tp ∧
      (State.clearRoutes s).is = s.is ∧ (State.clearRoutes s).lu = s.lu ∧ (State.clearRoutes s).bu = s.bu ∧
      (State.clearRoutes s).ju = s.ju ∧ (State.clearRoutes s).lrc = s.lrc ∧ (State.clearRoutes s).gu = s.gu ∧
      (State.clearRoutes s).nlc = s.nlc ∧ (State.clearRoutes s).sc = s.sc ∧
      (State.clearRoutes s).deferred = s.deferred ∧ (State.clearRoutes s).out = s.out ∧
      (State.clearRoutes s).freeIdx = s.freeIdx ∧ (State.clearRoutes s).pending = s.pending := by
  unfold State.clearRoutes
  simp

@[simp] theorem State.switchTo_frame (b : BankNo) (s : State) :
    (State.switchTo b s).stn = s.stn ∧ (State.switchTo b s).now = s.now ∧ (State.switchTo b s).lu = s.lu ∧
      (State.switchTo b s).bu = s.bu ∧ (State.switchTo b s).ju = s.ju ∧ (State.switchTo b s).fu = s.fu ∧
      (State.switchTo b s).gu = s.gu ∧ (State.switchTo b s).nlc = s.nlc ∧ (State.switchTo b s).sc = s.sc ∧
      (State.switchTo b s).deferred = s.deferred ∧ (State.switchTo b s).out = s.out ∧
      (State.switchTo b s).freeIdx = s.freeIdx ∧ (State.switchTo b s).pending = s.pending := by
  unfold State.switchTo
  simp

@[simp] theorem State.switchIfDue_frame (s : State) :
    (State.switchIfDue s).stn = s.stn ∧ (State.switchIfDue s).now = s.now ∧ (State.switchIfDue s).lu = s.lu ∧
      (State.switchIfDue s).bu = s.bu ∧ (State.switchIfDue s).ju = s.ju ∧ (State.switchIfDue s).fu = s.fu ∧
      (State.switchIfDue s).gu = s.gu ∧ (State.switchIfDue s).nlc = s.nlc ∧ (State.switchIfDue s).sc = s.sc ∧
      (State.switchIfDue s).deferred = s.deferred ∧ (State.switchIfDue s).out = s.out ∧
      (State.switchIfDue s).freeIdx = s.freeIdx ∧ (State.switchIfDue s).pending = s.pending := by
  unfold State.switchIfDue; repeat' split
  all_goals simp

@[simp] theorem State.sendRecords_frame (f : Frame) (s : State) :
    (State.sendRecords f s).stn = s.stn ∧ (State.sendRecords f s).now = s.now ∧ (State.sendRecords f s).is = s.is ∧
      (State.sendRecords f s).lu = s.lu ∧ (State.sendRecords f s).bu = s.bu ∧ (State.sendRecords f s).ju = s.ju ∧
      (State.sendRecords f s).lrc = s.lrc ∧ (State.sendRecords f s).fu = s.fu ∧ (State.sendRecords f s).gu = s.gu ∧
      (State.sendRecords f s).nlc = s.nlc ∧ (State.sendRecords f s).deferred = s.deferred ∧
      (State.sendRecords f s).out = s.out ∧ (State.sendRecords f s).freeIdx = s.freeIdx ∧
      (State.sendRecords f s).pending = s.pending := by
  unfold State.sendRecords; repeat' split
  all_goals simp

@[simp] theorem State.answerRead_frame (src : Station) (tag bank i n : Nat) (s : State) :
    (State.answerRead src tag bank i n s).stn = s.stn ∧ (State.answerRead src tag bank i n s).now = s.now ∧
      (State.answerRead src tag bank i n s).is = s.is ∧ (State.answerRead src tag bank i n s).lu = s.lu ∧
      (State.answerRead src tag bank i n s).bu = s.bu ∧ (State.answerRead src tag bank i n s).ju = s.ju ∧
      (State.answerRead src tag bank i n s).lrc = s.lrc ∧ (State.answerRead src tag bank i n s).fu = s.fu ∧
      (State.answerRead src tag bank i n s).gu = s.gu ∧ (State.answerRead src tag bank i n s).nlc = s.nlc ∧
      (State.answerRead src tag bank i n s).deferred = s.deferred ∧
      (State.answerRead src tag bank i n s).out = s.out ∧ (State.answerRead src tag bank i n s).pending = s.pending := by
  unfold State.answerRead; repeat' split
  all_goals simp

@[simp] theorem State.offerControl_frame (s : State) :
    (State.offerControl s).stn = s.stn ∧ (State.offerControl s).now = s.now ∧ (State.offerControl s).is = s.is ∧
      (State.offerControl s).lu = s.lu ∧ (State.offerControl s).bu = s.bu ∧ (State.offerControl s).ju = s.ju ∧
      (State.offerControl s).lrc = s.lrc ∧ (State.offerControl s).fu = s.fu ∧ (State.offerControl s).gu = s.gu ∧
      (State.offerControl s).nlc = s.nlc ∧ (State.offerControl s).deferred = s.deferred ∧
      (State.offerControl s).out = s.out ∧ (State.offerControl s).freeIdx = s.freeIdx ∧
      (State.offerControl s).pending = s.pending := by
  unfold State.offerControl; repeat' split
  all_goals simp

@[simp] theorem State.returnRecords_frame (x0 : List Frame) (s : State) :
    (State.returnRecords x0 s).stn = s.stn ∧ (State.returnRecords x0 s).now = s.now ∧
      (State.returnRecords x0 s).tp = s.tp ∧ (State.returnRecords x0 s).is = s.is ∧
      (State.returnRecords x0 s).lu = s.lu ∧ (State.returnRecords x0 s).bu = s.bu ∧
      (State.returnRecords x0 s).ju = s.ju ∧ (State.returnRecords x0 s).lrc = s.lrc ∧
      (State.returnRecords x0 s).fu = s.fu ∧ (State.returnRecords x0 s).gu = s.gu ∧
      (State.returnRecords x0 s).nlc = s.nlc ∧ (State.returnRecords x0 s).deferred = s.deferred ∧
      (State.returnRecords x0 s).out = s.out ∧ (State.returnRecords x0 s).freeIdx = s.freeIdx ∧
      (State.returnRecords x0 s).pending = s.pending := by
  induction x0 generalizing s with
  | nil => simp [State.returnRecords]
  | cons a l ih => simp only [State.returnRecords]; split <;> simp [ih]

@[simp] theorem State.dropNight_frame (s : State) :
    (State.dropNight s).stn = s.stn ∧ (State.dropNight s).now = s.now ∧ (State.dropNight s).tp = s.tp ∧
      (State.dropNight s).is = s.is ∧ (State.dropNight s).lu = s.lu ∧ (State.dropNight s).bu = s.bu ∧
      (State.dropNight s).ju = s.ju ∧ (State.dropNight s).lrc = s.lrc ∧ (State.dropNight s).fu = s.fu ∧
      (State.dropNight s).gu = s.gu ∧ (State.dropNight s).sc = s.sc ∧ (State.dropNight s).deferred = s.deferred ∧
      (State.dropNight s).out = s.out ∧ (State.dropNight s).freeIdx = s.freeIdx ∧
      (State.dropNight s).pending = s.pending := by
  unfold State.dropNight
  simp

@[simp] theorem State.toOffice_frame (m : NightMsg) (s : State) :
    (State.toOffice m s).stn = s.stn ∧ (State.toOffice m s).now = s.now ∧ (State.toOffice m s).is = s.is ∧
      (State.toOffice m s).lu = s.lu ∧ (State.toOffice m s).bu = s.bu ∧ (State.toOffice m s).ju = s.ju ∧
      (State.toOffice m s).lrc = s.lrc ∧ (State.toOffice m s).nlc = s.nlc ∧ (State.toOffice m s).sc = s.sc ∧
      (State.toOffice m s).deferred = s.deferred ∧ (State.toOffice m s).freeIdx = s.freeIdx ∧
      (State.toOffice m s).pending = s.pending := by
  unfold State.toOffice; repeat' split
  all_goals simp

@[simp] theorem State.forwardOffice_frame (m : NightMsg) (s : State) :
    (State.forwardOffice m s).stn = s.stn ∧ (State.forwardOffice m s).now = s.now ∧
      (State.forwardOffice m s).is = s.is ∧ (State.forwardOffice m s).lu = s.lu ∧
      (State.forwardOffice m s).bu = s.bu ∧ (State.forwardOffice m s).ju = s.ju ∧
      (State.forwardOffice m s).lrc = s.lrc ∧ (State.forwardOffice m s).sc = s.sc ∧
      (State.forwardOffice m s).deferred = s.deferred ∧ (State.forwardOffice m s).freeIdx = s.freeIdx ∧
      (State.forwardOffice m s).pending = s.pending := by
  unfold State.forwardOffice; repeat' split
  all_goals simp

@[simp] theorem State.handNight_frame (s : State) :
    (State.handNight s).stn = s.stn ∧ (State.handNight s).now = s.now ∧ (State.handNight s).is = s.is ∧
      (State.handNight s).lu = s.lu ∧ (State.handNight s).bu = s.bu ∧ (State.handNight s).ju = s.ju ∧
      (State.handNight s).lrc = s.lrc ∧ (State.handNight s).fu = s.fu ∧ (State.handNight s).gu = s.gu ∧
      (State.handNight s).sc = s.sc ∧ (State.handNight s).deferred = s.deferred ∧ (State.handNight s).out = s.out ∧
      (State.handNight s).freeIdx = s.freeIdx ∧ (State.handNight s).pending = s.pending := by
  unfold State.handNight; repeat' split
  all_goals simp

@[simp] theorem State.flushFor_frame (x0 : Nat) (s : State) :
    (State.flushFor x0 s).stn = s.stn ∧ (State.flushFor x0 s).now = s.now ∧ (State.flushFor x0 s).is = s.is ∧
      (State.flushFor x0 s).lu = s.lu ∧ (State.flushFor x0 s).bu = s.bu ∧ (State.flushFor x0 s).ju = s.ju ∧
      (State.flushFor x0 s).lrc = s.lrc ∧ (State.flushFor x0 s).fu = s.fu ∧ (State.flushFor x0 s).gu = s.gu ∧
      (State.flushFor x0 s).sc = s.sc ∧ (State.flushFor x0 s).deferred = s.deferred ∧
      (State.flushFor x0 s).out = s.out ∧ (State.flushFor x0 s).freeIdx = s.freeIdx ∧
      (State.flushFor x0 s).pending = s.pending := by
  induction x0 generalizing s with
  | zero => simp [State.flushFor]
  | succ m ih =>
    simp only [State.flushFor]; repeat' split
    all_goals simp [ih]

@[simp] theorem State.flushNight_frame (s : State) :
    (State.flushNight s).stn = s.stn ∧ (State.flushNight s).now = s.now ∧ (State.flushNight s).is = s.is ∧
      (State.flushNight s).lu = s.lu ∧ (State.flushNight s).bu = s.bu ∧ (State.flushNight s).ju = s.ju ∧
      (State.flushNight s).lrc = s.lrc ∧ (State.flushNight s).fu = s.fu ∧ (State.flushNight s).gu = s.gu ∧
      (State.flushNight s).sc = s.sc ∧ (State.flushNight s).deferred = s.deferred ∧
      (State.flushNight s).out = s.out ∧ (State.flushNight s).freeIdx = s.freeIdx ∧
      (State.flushNight s).pending = s.pending := by
  unfold State.flushNight; repeat' split
  all_goals simp

@[simp] theorem State.addSend_frame (m : NightMsg) (dst : Station) (tag : Nat) (s : State) :
    (State.addSend m dst tag s).stn = s.stn ∧ (State.addSend m dst tag s).now = s.now ∧
      (State.addSend m dst tag s).is = s.is ∧ (State.addSend m dst tag s).lu = s.lu ∧
      (State.addSend m dst tag s).bu = s.bu ∧ (State.addSend m dst tag s).ju = s.ju ∧
      (State.addSend m dst tag s).lrc = s.lrc ∧ (State.addSend m dst tag s).fu = s.fu ∧
      (State.addSend m dst tag s).gu = s.gu ∧ (State.addSend m dst tag s).sc = s.sc ∧
      (State.addSend m dst tag s).deferred = s.deferred ∧ (State.addSend m dst tag s).out = s.out ∧
      (State.addSend m dst tag s).freeIdx = s.freeIdx ∧ (State.addSend m dst tag s).pending = s.pending := by
  unfold State.addSend; repeat' split
  all_goals simp

@[simp] theorem State.sendBlock_frame (m : NightMsg) (s : State) :
    (State.sendBlock m s).stn = s.stn ∧ (State.sendBlock m s).now = s.now ∧ (State.sendBlock m s).is = s.is ∧
      (State.sendBlock m s).lu = s.lu ∧ (State.sendBlock m s).bu = s.bu ∧ (State.sendBlock m s).ju = s.ju ∧
      (State.sendBlock m s).lrc = s.lrc ∧ (State.sendBlock m s).sc = s.sc ∧
      (State.sendBlock m s).deferred = s.deferred ∧ (State.sendBlock m s).freeIdx = s.freeIdx ∧
      (State.sendBlock m s).pending = s.pending := by
  simp only [State.sendBlock]
  repeat' split
  all_goals simp

@[simp] theorem State.activityStep_frame (s : State) :
    (State.activityStep s).stn = s.stn ∧ (State.activityStep s).now = s.now ∧ (State.activityStep s).is = s.is ∧
      (State.activityStep s).lu = s.lu ∧ (State.activityStep s).bu = s.bu ∧ (State.activityStep s).ju = s.ju ∧
      (State.activityStep s).lrc = s.lrc ∧ (State.activityStep s).sc = s.sc ∧
      (State.activityStep s).deferred = s.deferred ∧ (State.activityStep s).freeIdx = s.freeIdx ∧
      (State.activityStep s).pending = s.pending := by
  unfold State.activityStep; repeat' split
  all_goals simp

@[simp] theorem State.opportunityFor_frame (x0 : Nat) (s : State) :
    (State.opportunityFor x0 s).stn = s.stn ∧ (State.opportunityFor x0 s).now = s.now ∧
      (State.opportunityFor x0 s).is = s.is ∧ (State.opportunityFor x0 s).lu = s.lu ∧
      (State.opportunityFor x0 s).bu = s.bu ∧ (State.opportunityFor x0 s).lrc = s.lrc ∧
      (State.opportunityFor x0 s).sc = s.sc ∧ (State.opportunityFor x0 s).deferred = s.deferred ∧
      (State.opportunityFor x0 s).freeIdx = s.freeIdx ∧ (State.opportunityFor x0 s).pending = s.pending := by
  induction x0 generalizing s with
  | zero => simp [State.opportunityFor]
  | succ m ih =>
    simp only [State.opportunityFor]; repeat' split
    all_goals simp [ih]

@[simp] theorem State.opportunity_frame (s : State) :
    (State.opportunity s).stn = s.stn ∧ (State.opportunity s).now = s.now ∧ (State.opportunity s).is = s.is ∧
      (State.opportunity s).lu = s.lu ∧ (State.opportunity s).bu = s.bu ∧ (State.opportunity s).lrc = s.lrc ∧
      (State.opportunity s).sc = s.sc ∧ (State.opportunity s).deferred = s.deferred ∧
      (State.opportunity s).freeIdx = s.freeIdx ∧ (State.opportunity s).pending = s.pending := by
  unfold State.opportunity
  simp

@[simp] theorem State.returnAllBlocks_frame (s : State) :
    (State.returnAllBlocks s).stn = s.stn ∧ (State.returnAllBlocks s).now = s.now ∧
      (State.returnAllBlocks s).tp = s.tp ∧ (State.returnAllBlocks s).is = s.is ∧
      (State.returnAllBlocks s).lu = s.lu ∧ (State.returnAllBlocks s).bu = s.bu ∧
      (State.returnAllBlocks s).lrc = s.lrc ∧ (State.returnAllBlocks s).fu = s.fu ∧
      (State.returnAllBlocks s).gu = s.gu ∧ (State.returnAllBlocks s).sc = s.sc ∧
      (State.returnAllBlocks s).deferred = s.deferred ∧ (State.returnAllBlocks s).out = s.out ∧
      (State.returnAllBlocks s).freeIdx = s.freeIdx ∧ (State.returnAllBlocks s).pending = s.pending := by
  unfold State.returnAllBlocks
  simp

@[simp] theorem State.leaveUpload_frame (s : State) :
    (State.leaveUpload s).stn = s.stn ∧ (State.leaveUpload s).now = s.now ∧ (State.leaveUpload s).tp = s.tp ∧
      (State.leaveUpload s).is = s.is ∧ (State.leaveUpload s).lu = s.lu ∧ (State.leaveUpload s).bu = s.bu ∧
      (State.leaveUpload s).lrc = s.lrc ∧ (State.leaveUpload s).fu = s.fu ∧ (State.leaveUpload s).gu = s.gu ∧
      (State.leaveUpload s).sc = s.sc ∧ (State.leaveUpload s).deferred = s.deferred ∧
      (State.leaveUpload s).out = s.out ∧ (State.leaveUpload s).freeIdx = s.freeIdx ∧
      (State.leaveUpload s).pending = s.pending := by
  unfold State.leaveUpload; repeat' split
  all_goals simp

@[simp] theorem State.endUpload_frame (s : State) :
    (State.endUpload s).stn = s.stn ∧ (State.endUpload s).now = s.now ∧ (State.endUpload s).is = s.is ∧
      (State.endUpload s).lu = s.lu ∧ (State.endUpload s).bu = s.bu ∧ (State.endUpload s).lrc = s.lrc ∧
      (State.endUpload s).fu = s.fu ∧ (State.endUpload s).gu = s.gu ∧ (State.endUpload s).sc = s.sc ∧
      (State.endUpload s).deferred = s.deferred ∧ (State.endUpload s).out = s.out ∧
      (State.endUpload s).freeIdx = s.freeIdx ∧ (State.endUpload s).pending = s.pending := by
  unfold State.endUpload
  simp

@[simp] theorem State.suspendUpload_frame (s : State) :
    (State.suspendUpload s).stn = s.stn ∧ (State.suspendUpload s).now = s.now ∧ (State.suspendUpload s).is = s.is ∧
      (State.suspendUpload s).lu = s.lu ∧ (State.suspendUpload s).bu = s.bu ∧ (State.suspendUpload s).lrc = s.lrc ∧
      (State.suspendUpload s).fu = s.fu ∧ (State.suspendUpload s).gu = s.gu ∧ (State.suspendUpload s).sc = s.sc ∧
      (State.suspendUpload s).deferred = s.deferred ∧ (State.suspendUpload s).out = s.out ∧
      (State.suspendUpload s).freeIdx = s.freeIdx ∧ (State.suspendUpload s).pending = s.pending := by
  unfold State.suspendUpload
  simp

@[simp] theorem State.testUpload_frame (s : State) :
    (State.testUpload s).stn = s.stn ∧ (State.testUpload s).now = s.now ∧ (State.testUpload s).is = s.is ∧
      (State.testUpload s).lu = s.lu ∧ (State.testUpload s).bu = s.bu ∧ (State.testUpload s).lrc = s.lrc ∧
      (State.testUpload s).sc = s.sc ∧ (State.testUpload s).deferred = s.deferred ∧
      (State.testUpload s).freeIdx = s.freeIdx ∧ (State.testUpload s).pending = s.pending := by
  unfold State.testUpload; repeat' split
  all_goals simp

@[simp] theorem State.takeAck_frame (ref : BlockRef) (s : State) :
    (State.takeAck ref s).stn = s.stn ∧ (State.takeAck ref s).now = s.now ∧ (State.takeAck ref s).lu = s.lu ∧
      (State.takeAck ref s).bu = s.bu ∧ (State.takeAck ref s).lrc = s.lrc ∧ (State.takeAck ref s).sc = s.sc ∧
      (State.takeAck ref s).deferred = s.deferred ∧ (State.takeAck ref s).freeIdx = s.freeIdx ∧
      (State.takeAck ref s).pending = s.pending := by
  unfold State.takeAck; repeat' split
  all_goals simp

@[simp] theorem State.journalBlockExpired_frame (first : Seq) (count : Nat) (s : State) :
    (State.journalBlockExpired first count s).stn = s.stn ∧ (State.journalBlockExpired first count s).now = s.now ∧
      (State.journalBlockExpired first count s).is = s.is ∧ (State.journalBlockExpired first count s).lu = s.lu ∧
      (State.journalBlockExpired first count s).bu = s.bu ∧ (State.journalBlockExpired first count s).lrc = s.lrc ∧
      (State.journalBlockExpired first count s).sc = s.sc ∧
      (State.journalBlockExpired first count s).deferred = s.deferred ∧
      (State.journalBlockExpired first count s).freeIdx = s.freeIdx ∧
      (State.journalBlockExpired first count s).pending = s.pending := by
  simp only [State.journalBlockExpired]
  repeat' split
  all_goals simp

@[simp] theorem State.activityBlockExpired_frame (number : Nat) (s : State) :
    (State.activityBlockExpired number s).stn = s.stn ∧ (State.activityBlockExpired number s).now = s.now ∧
      (State.activityBlockExpired number s).is = s.is ∧ (State.activityBlockExpired number s).lu = s.lu ∧
      (State.activityBlockExpired number s).bu = s.bu ∧ (State.activityBlockExpired number s).lrc = s.lrc ∧
      (State.activityBlockExpired number s).sc = s.sc ∧ (State.activityBlockExpired number s).deferred = s.deferred ∧
      (State.activityBlockExpired number s).freeIdx = s.freeIdx ∧
      (State.activityBlockExpired number s).pending = s.pending := by
  unfold State.activityBlockExpired; repeat' split
  all_goals simp

@[simp] theorem State.enterDay_frame (s : State) :
    (State.enterDay s).stn = s.stn ∧ (State.enterDay s).now = s.now ∧ (State.enterDay s).tp = s.tp ∧
      (State.enterDay s).is = s.is ∧ (State.enterDay s).lu = s.lu ∧ (State.enterDay s).bu = s.bu ∧
      (State.enterDay s).ju = s.ju ∧ (State.enterDay s).lrc = s.lrc ∧ (State.enterDay s).fu = s.fu ∧
      (State.enterDay s).gu = s.gu ∧ (State.enterDay s).sc = s.sc ∧ (State.enterDay s).deferred = s.deferred ∧
      (State.enterDay s).out = s.out ∧ (State.enterDay s).freeIdx = s.freeIdx ∧ (State.enterDay s).pending = s.pending := by
  unfold State.enterDay
  simp

@[simp] theorem State.testDrained_frame (s : State) :
    (State.testDrained s).stn = s.stn ∧ (State.testDrained s).now = s.now ∧ (State.testDrained s).tp = s.tp ∧
      (State.testDrained s).is = s.is ∧ (State.testDrained s).lu = s.lu ∧ (State.testDrained s).bu = s.bu ∧
      (State.testDrained s).ju = s.ju ∧ (State.testDrained s).lrc = s.lrc ∧ (State.testDrained s).fu = s.fu ∧
      (State.testDrained s).gu = s.gu ∧ (State.testDrained s).sc = s.sc ∧
      (State.testDrained s).deferred = s.deferred ∧ (State.testDrained s).out = s.out ∧
      (State.testDrained s).freeIdx = s.freeIdx ∧ (State.testDrained s).pending = s.pending := by
  unfold State.testDrained; repeat' split
  all_goals simp

@[simp] theorem State.testCall_frame (s : State) :
    (State.testCall s).stn = s.stn ∧ (State.testCall s).now = s.now ∧ (State.testCall s).is = s.is ∧
      (State.testCall s).lu = s.lu ∧ (State.testCall s).bu = s.bu ∧ (State.testCall s).ju = s.ju ∧
      (State.testCall s).lrc = s.lrc ∧ (State.testCall s).sc = s.sc ∧ (State.testCall s).deferred = s.deferred ∧
      (State.testCall s).freeIdx = s.freeIdx ∧ (State.testCall s).pending = s.pending := by
  unfold State.testCall; repeat' split
  all_goals simp

@[simp] theorem State.enterWindow_frame (s : State) :
    (State.enterWindow s).stn = s.stn ∧ (State.enterWindow s).now = s.now ∧ (State.enterWindow s).is = s.is ∧
      (State.enterWindow s).lu = s.lu ∧ (State.enterWindow s).bu = s.bu ∧ (State.enterWindow s).ju = s.ju ∧
      (State.enterWindow s).lrc = s.lrc ∧ (State.enterWindow s).sc = s.sc ∧
      (State.enterWindow s).deferred = s.deferred ∧ (State.enterWindow s).freeIdx = s.freeIdx ∧
      (State.enterWindow s).pending = s.pending := by
  unfold State.enterWindow
  simp

@[simp] theorem State.leaveWindow_frame (s : State) :
    (State.leaveWindow s).stn = s.stn ∧ (State.leaveWindow s).now = s.now ∧ (State.leaveWindow s).is = s.is ∧
      (State.leaveWindow s).lu = s.lu ∧ (State.leaveWindow s).bu = s.bu ∧ (State.leaveWindow s).ju = s.ju ∧
      (State.leaveWindow s).lrc = s.lrc ∧ (State.leaveWindow s).sc = s.sc ∧
      (State.leaveWindow s).deferred = s.deferred ∧ (State.leaveWindow s).freeIdx = s.freeIdx ∧
      (State.leaveWindow s).pending = s.pending := by
  simp only [State.leaveWindow]
  repeat' split
  all_goals simp

@[simp] theorem State.testWindow_frame (s : State) :
    (State.testWindow s).stn = s.stn ∧ (State.testWindow s).now = s.now ∧ (State.testWindow s).is = s.is ∧
      (State.testWindow s).lu = s.lu ∧ (State.testWindow s).bu = s.bu ∧ (State.testWindow s).ju = s.ju ∧
      (State.testWindow s).lrc = s.lrc ∧ (State.testWindow s).sc = s.sc ∧
      (State.testWindow s).deferred = s.deferred ∧ (State.testWindow s).freeIdx = s.freeIdx ∧
      (State.testWindow s).pending = s.pending := by
  unfold State.testWindow; repeat' split
  all_goals simp

@[simp] theorem State.takeSessionEnd_frame (s : State) :
    (State.takeSessionEnd s).stn = s.stn ∧ (State.takeSessionEnd s).now = s.now ∧
      (State.takeSessionEnd s).tp = s.tp ∧ (State.takeSessionEnd s).is = s.is ∧ (State.takeSessionEnd s).lu = s.lu ∧
      (State.takeSessionEnd s).bu = s.bu ∧ (State.takeSessionEnd s).ju = s.ju ∧
      (State.takeSessionEnd s).lrc = s.lrc ∧ (State.takeSessionEnd s).fu = s.fu ∧
      (State.takeSessionEnd s).gu = s.gu ∧ (State.takeSessionEnd s).sc = s.sc ∧
      (State.takeSessionEnd s).deferred = s.deferred ∧ (State.takeSessionEnd s).out = s.out ∧
      (State.takeSessionEnd s).freeIdx = s.freeIdx ∧ (State.takeSessionEnd s).pending = s.pending := by
  unfold State.takeSessionEnd; repeat' split
  all_goals simp

@[simp] theorem State.openSession_frame (s : State) :
    (State.openSession s).stn = s.stn ∧ (State.openSession s).now = s.now ∧ (State.openSession s).tp = s.tp ∧
      (State.openSession s).is = s.is ∧ (State.openSession s).lu = s.lu ∧ (State.openSession s).bu = s.bu ∧
      (State.openSession s).ju = s.ju ∧ (State.openSession s).lrc = s.lrc ∧ (State.openSession s).gu = s.gu ∧
      (State.openSession s).sc = s.sc ∧ (State.openSession s).deferred = s.deferred ∧
      (State.openSession s).out = s.out ∧ (State.openSession s).freeIdx = s.freeIdx ∧
      (State.openSession s).pending = s.pending := by
  unfold State.openSession
  simp

@[simp] theorem State.callExpired_frame (s : State) :
    (State.callExpired s).stn = s.stn ∧ (State.callExpired s).now = s.now ∧ (State.callExpired s).tp = s.tp ∧
      (State.callExpired s).is = s.is ∧ (State.callExpired s).lu = s.lu ∧ (State.callExpired s).bu = s.bu ∧
      (State.callExpired s).ju = s.ju ∧ (State.callExpired s).lrc = s.lrc ∧ (State.callExpired s).fu = s.fu ∧
      (State.callExpired s).gu = s.gu ∧ (State.callExpired s).sc = s.sc ∧
      (State.callExpired s).deferred = s.deferred ∧ (State.callExpired s).out = s.out ∧
      (State.callExpired s).freeIdx = s.freeIdx ∧ (State.callExpired s).pending = s.pending := by
  unfold State.callExpired; repeat' split
  all_goals simp

@[simp] theorem State.loseSession_frame (s : State) :
    (State.loseSession s).stn = s.stn ∧ (State.loseSession s).now = s.now ∧ (State.loseSession s).tp = s.tp ∧
      (State.loseSession s).is = s.is ∧ (State.loseSession s).lu = s.lu ∧ (State.loseSession s).bu = s.bu ∧
      (State.loseSession s).ju = s.ju ∧ (State.loseSession s).lrc = s.lrc ∧ (State.loseSession s).fu = s.fu ∧
      (State.loseSession s).gu = s.gu ∧ (State.loseSession s).sc = s.sc ∧
      (State.loseSession s).deferred = s.deferred ∧ (State.loseSession s).out = s.out ∧
      (State.loseSession s).freeIdx = s.freeIdx ∧ (State.loseSession s).pending = s.pending := by
  unfold State.loseSession; repeat' split
  all_goals simp

@[simp] theorem State.readdress_frame (s : State) :
    (State.readdress s).stn = s.stn ∧ (State.readdress s).now = s.now ∧ (State.readdress s).is = s.is ∧
      (State.readdress s).lu = s.lu ∧ (State.readdress s).bu = s.bu ∧ (State.readdress s).ju = s.ju ∧
      (State.readdress s).lrc = s.lrc ∧ (State.readdress s).sc = s.sc ∧ (State.readdress s).deferred = s.deferred ∧
      (State.readdress s).freeIdx = s.freeIdx ∧ (State.readdress s).pending = s.pending := by
  simp only [State.readdress]; and_intros
  all_goals (repeat' split)
  all_goals first | simp; done | exact (foldl_keeps _ _ (by intro s a; simp) _ _).trans (by simp)

@[simp] theorem State.rejudge_frame (s : State) :
    (State.rejudge s).stn = s.stn ∧ (State.rejudge s).now = s.now ∧ (State.rejudge s).is = s.is ∧
      (State.rejudge s).lu = s.lu ∧ (State.rejudge s).bu = s.bu ∧ (State.rejudge s).lrc = s.lrc ∧
      (State.rejudge s).sc = s.sc ∧ (State.rejudge s).deferred = s.deferred ∧ (State.rejudge s).freeIdx = s.freeIdx ∧
      (State.rejudge s).pending = s.pending := by
  simp only [State.rejudge]
  repeat' split
  all_goals simp

@[simp] theorem State.report_frame (m : NightMsg) (tag : Nat) (s : State) :
    (State.report m tag s).stn = s.stn ∧ (State.report m tag s).now = s.now ∧ (State.report m tag s).is = s.is ∧
      (State.report m tag s).lu = s.lu ∧ (State.report m tag s).bu = s.bu ∧ (State.report m tag s).ju = s.ju ∧
      (State.report m tag s).lrc = s.lrc ∧ (State.report m tag s).sc = s.sc ∧
      (State.report m tag s).deferred = s.deferred ∧ (State.report m tag s).freeIdx = s.freeIdx ∧
      (State.report m tag s).pending = s.pending := by
  unfold State.report; repeat' split
  all_goals simp

@[simp] theorem State.runOrder_frame (tag : Nat) (b : BankNo) (o : Order) (s : State) :
    (State.runOrder tag b o s).stn = s.stn ∧ (State.runOrder tag b o s).now = s.now ∧
      (State.runOrder tag b o s).lu = s.lu ∧ (State.runOrder tag b o s).bu = s.bu ∧
      (State.runOrder tag b o s).ju = s.ju ∧ (State.runOrder tag b o s).sc = s.sc ∧
      (State.runOrder tag b o s).freeIdx = s.freeIdx ∧ (State.runOrder tag b o s).pending = s.pending := by
  simp only [State.runOrder]
  repeat' split
  all_goals simp

@[simp] theorem State.eraseDone_frame (b : BankNo) (s : State) :
    (State.eraseDone b s).stn = s.stn ∧ (State.eraseDone b s).now = s.now ∧ (State.eraseDone b s).lu = s.lu ∧
      (State.eraseDone b s).bu = s.bu ∧ (State.eraseDone b s).ju = s.ju ∧ (State.eraseDone b s).lrc = s.lrc ∧
      (State.eraseDone b s).sc = s.sc ∧ (State.eraseDone b s).deferred = s.deferred ∧
      (State.eraseDone b s).freeIdx = s.freeIdx ∧ (State.eraseDone b s).pending = s.pending := by
  unfold State.eraseDone; repeat' split
  all_goals simp

@[simp] theorem State.runRead_frame (tag bank index count : Nat) (s : State) :
    (State.runRead tag bank index count s).stn = s.stn ∧ (State.runRead tag bank index count s).now = s.now ∧
      (State.runRead tag bank index count s).is = s.is ∧ (State.runRead tag bank index count s).lu = s.lu ∧
      (State.runRead tag bank index count s).bu = s.bu ∧ (State.runRead tag bank index count s).ju = s.ju ∧
      (State.runRead tag bank index count s).lrc = s.lrc ∧ (State.runRead tag bank index count s).sc = s.sc ∧
      (State.runRead tag bank index count s).deferred = s.deferred ∧
      (State.runRead tag bank index count s).pending = s.pending := by
  unfold State.runRead
  simp

@[simp] theorem State.relayOrder_frame (t : Station) (tag : Nat) (b : BankNo) (o : Order) (s : State) :
    (State.relayOrder t tag b o s).stn = s.stn ∧ (State.relayOrder t tag b o s).now = s.now ∧
      (State.relayOrder t tag b o s).lu = s.lu ∧ (State.relayOrder t tag b o s).bu = s.bu ∧
      (State.relayOrder t tag b o s).ju = s.ju ∧ (State.relayOrder t tag b o s).sc = s.sc ∧
      (State.relayOrder t tag b o s).freeIdx = s.freeIdx ∧ (State.relayOrder t tag b o s).pending = s.pending := by
  unfold State.relayOrder; repeat' split
  all_goals simp

@[simp] theorem State.relayRead_frame (t : Station) (tag bank index count : Nat) (s : State) :
    (State.relayRead t tag bank index count s).stn = s.stn ∧
      (State.relayRead t tag bank index count s).now = s.now ∧ (State.relayRead t tag bank index count s).is = s.is ∧
      (State.relayRead t tag bank index count s).lu = s.lu ∧ (State.relayRead t tag bank index count s).bu = s.bu ∧
      (State.relayRead t tag bank index count s).ju = s.ju ∧ (State.relayRead t tag bank index count s).lrc = s.lrc ∧
      (State.relayRead t tag bank index count s).sc = s.sc ∧
      (State.relayRead t tag bank index count s).pending = s.pending := by
  unfold State.relayRead; repeat' split
  all_goals simp

@[simp] theorem State.relayAck_frame (t : Station) (ref : BlockRef) (s : State) :
    (State.relayAck t ref s).stn = s.stn ∧ (State.relayAck t ref s).now = s.now ∧
      (State.relayAck t ref s).lu = s.lu ∧ (State.relayAck t ref s).bu = s.bu ∧
      (State.relayAck t ref s).lrc = s.lrc ∧ (State.relayAck t ref s).sc = s.sc ∧
      (State.relayAck t ref s).pending = s.pending := by
  unfold State.relayAck; repeat' split
  all_goals simp

@[simp] theorem State.takeNight_frame (src : Station) (m : NightMsg) (s : State) :
    (State.takeNight src m s).stn = s.stn ∧ (State.takeNight src m s).now = s.now ∧
      (State.takeNight src m s).lu = s.lu ∧ (State.takeNight src m s).bu = s.bu ∧
      (State.takeNight src m s).ju = s.ju ∧ (State.takeNight src m s).sc = s.sc ∧
      (State.takeNight src m s).pending = s.pending := by
  unfold State.takeNight; repeat' split
  all_goals simp

@[simp] theorem State.setAssembly_frame (src : Station) (a : Option Assembly) (s : State) :
    (State.setAssembly src a s).stn = s.stn ∧ (State.setAssembly src a s).now = s.now ∧
      (State.setAssembly src a s).tp = s.tp ∧ (State.setAssembly src a s).is = s.is ∧
      (State.setAssembly src a s).lu = s.lu ∧ (State.setAssembly src a s).bu = s.bu ∧
      (State.setAssembly src a s).ju = s.ju ∧ (State.setAssembly src a s).lrc = s.lrc ∧
      (State.setAssembly src a s).fu = s.fu ∧ (State.setAssembly src a s).gu = s.gu ∧
      (State.setAssembly src a s).sc = s.sc ∧ (State.setAssembly src a s).deferred = s.deferred ∧
      (State.setAssembly src a s).out = s.out ∧ (State.setAssembly src a s).freeIdx = s.freeIdx ∧
      (State.setAssembly src a s).pending = s.pending := by
  unfold State.setAssembly
  simp

@[simp] theorem State.takeOffice_frame (src : Station) (tag : Nat) (m : NightMsg) (k n : Nat) (s : State) :
    (State.takeOffice src tag m k n s).stn = s.stn ∧ (State.takeOffice src tag m k n s).now = s.now ∧
      (State.takeOffice src tag m k n s).lu = s.lu ∧ (State.takeOffice src tag m k n s).bu = s.bu ∧
      (State.takeOffice src tag m k n s).ju = s.ju ∧ (State.takeOffice src tag m k n s).sc = s.sc ∧
      (State.takeOffice src tag m k n s).pending = s.pending := by
  unfold State.takeOffice; repeat' split
  all_goals simp

@[simp] theorem State.assemblyExpired_frame (src : Station) (s : State) :
    (State.assemblyExpired src s).stn = s.stn ∧ (State.assemblyExpired src s).now = s.now ∧
      (State.assemblyExpired src s).tp = s.tp ∧ (State.assemblyExpired src s).is = s.is ∧
      (State.assemblyExpired src s).lu = s.lu ∧ (State.assemblyExpired src s).bu = s.bu ∧
      (State.assemblyExpired src s).ju = s.ju ∧ (State.assemblyExpired src s).lrc = s.lrc ∧
      (State.assemblyExpired src s).fu = s.fu ∧ (State.assemblyExpired src s).gu = s.gu ∧
      (State.assemblyExpired src s).sc = s.sc ∧ (State.assemblyExpired src s).deferred = s.deferred ∧
      (State.assemblyExpired src s).out = s.out ∧ (State.assemblyExpired src s).freeIdx = s.freeIdx ∧
      (State.assemblyExpired src s).pending = s.pending := by
  unfold State.assemblyExpired; repeat' split
  all_goals simp

@[simp] theorem State.takeBlockAck_frame (src : Station) (ref : BlockRef) (s : State) :
    (State.takeBlockAck src ref s).stn = s.stn ∧ (State.takeBlockAck src ref s).now = s.now ∧
      (State.takeBlockAck src ref s).lu = s.lu ∧ (State.takeBlockAck src ref s).bu = s.bu ∧
      (State.takeBlockAck src ref s).lrc = s.lrc ∧ (State.takeBlockAck src ref s).sc = s.sc ∧
      (State.takeBlockAck src ref s).freeIdx = s.freeIdx ∧ (State.takeBlockAck src ref s).pending = s.pending := by
  unfold State.takeBlockAck; repeat' split
  all_goals simp

@[simp] theorem State.returnNight_frame (fs : List Frame) (s : State) :
    (State.returnNight fs s).stn = s.stn ∧ (State.returnNight fs s).now = s.now ∧
      (State.returnNight fs s).tp = s.tp ∧ (State.returnNight fs s).is = s.is ∧ (State.returnNight fs s).lu = s.lu ∧
      (State.returnNight fs s).bu = s.bu ∧ (State.returnNight fs s).ju = s.ju ∧
      (State.returnNight fs s).lrc = s.lrc ∧ (State.returnNight fs s).fu = s.fu ∧
      (State.returnNight fs s).gu = s.gu ∧ (State.returnNight fs s).sc = s.sc ∧
      (State.returnNight fs s).deferred = s.deferred ∧ (State.returnNight fs s).out = s.out ∧
      (State.returnNight fs s).freeIdx = s.freeIdx ∧ (State.returnNight fs s).pending = s.pending := by
  unfold State.returnNight
  simp

@[simp] theorem State.clearNight_frame (s : State) :
    (State.clearNight s).stn = s.stn ∧ (State.clearNight s).now = s.now ∧ (State.clearNight s).is = s.is ∧
      (State.clearNight s).lu = s.lu ∧ (State.clearNight s).bu = s.bu ∧ (State.clearNight s).ju = s.ju ∧
      (State.clearNight s).lrc = s.lrc ∧ (State.clearNight s).fu = s.fu ∧ (State.clearNight s).gu = s.gu ∧
      (State.clearNight s).sc = s.sc ∧ (State.clearNight s).deferred = s.deferred ∧ (State.clearNight s).out = s.out ∧
      (State.clearNight s).freeIdx = s.freeIdx ∧ (State.clearNight s).pending = s.pending := by
  unfold State.clearNight
  simp

@[simp] theorem State.startQuery_frame (k : TillNo) (code : Nat) (p : Purpose) (s : State) :
    (State.startQuery k code p s).2.stn = s.stn ∧ (State.startQuery k code p s).2.now = s.now ∧
      (State.startQuery k code p s).2.is = s.is ∧ (State.startQuery k code p s).2.bu = s.bu ∧
      (State.startQuery k code p s).2.ju = s.ju ∧ (State.startQuery k code p s).2.lrc = s.lrc ∧
      (State.startQuery k code p s).2.fu = s.fu ∧ (State.startQuery k code p s).2.gu = s.gu ∧
      (State.startQuery k code p s).2.nlc = s.nlc ∧ (State.startQuery k code p s).2.sc = s.sc ∧
      (State.startQuery k code p s).2.deferred = s.deferred ∧ (State.startQuery k code p s).2.out = s.out ∧
      (State.startQuery k code p s).2.freeIdx = s.freeIdx ∧ (State.startQuery k code p s).2.pending = s.pending := by
  simp only [State.startQuery]
  repeat' split
  all_goals simp

@[simp] theorem State.resendQuery_frame (k : TillNo) (s : State) :
    (State.resendQuery k s).2.stn = s.stn ∧ (State.resendQuery k s).2.now = s.now ∧
      (State.resendQuery k s).2.is = s.is ∧ (State.resendQuery k s).2.bu = s.bu ∧
      (State.resendQuery k s).2.ju = s.ju ∧ (State.resendQuery k s).2.lrc = s.lrc ∧
      (State.resendQuery k s).2.fu = s.fu ∧ (State.resendQuery k s).2.gu = s.gu ∧
      (State.resendQuery k s).2.nlc = s.nlc ∧ (State.resendQuery k s).2.sc = s.sc ∧
      (State.resendQuery k s).2.deferred = s.deferred ∧ (State.resendQuery k s).2.out = s.out ∧
      (State.resendQuery k s).2.freeIdx = s.freeIdx ∧ (State.resendQuery k s).2.pending = s.pending := by
  simp only [State.resendQuery]
  repeat' split
  all_goals simp

@[simp] theorem State.queryExpired_frame (k : TillNo) (s : State) :
    (State.queryExpired k s).2.stn = s.stn ∧ (State.queryExpired k s).2.now = s.now ∧
      (State.queryExpired k s).2.is = s.is ∧ (State.queryExpired k s).2.bu = s.bu ∧
      (State.queryExpired k s).2.ju = s.ju ∧ (State.queryExpired k s).2.lrc = s.lrc ∧
      (State.queryExpired k s).2.fu = s.fu ∧ (State.queryExpired k s).2.gu = s.gu ∧
      (State.queryExpired k s).2.nlc = s.nlc ∧ (State.queryExpired k s).2.sc = s.sc ∧
      (State.queryExpired k s).2.deferred = s.deferred ∧ (State.queryExpired k s).2.out = s.out ∧
      (State.queryExpired k s).2.freeIdx = s.freeIdx ∧ (State.queryExpired k s).2.pending = s.pending := by
  unfold State.queryExpired; repeat' split
  all_goals simp

@[simp] theorem State.lookup_frame (k : TillNo) (code : Nat) (p : Purpose) (s : State) :
    (State.lookup k code p s).2.stn = s.stn ∧ (State.lookup k code p s).2.now = s.now ∧
      (State.lookup k code p s).2.bu = s.bu ∧ (State.lookup k code p s).2.ju = s.ju ∧
      (State.lookup k code p s).2.lrc = s.lrc ∧ (State.lookup k code p s).2.fu = s.fu ∧
      (State.lookup k code p s).2.gu = s.gu ∧ (State.lookup k code p s).2.nlc = s.nlc ∧
      (State.lookup k code p s).2.sc = s.sc ∧ (State.lookup k code p s).2.deferred = s.deferred ∧
      (State.lookup k code p s).2.out = s.out ∧ (State.lookup k code p s).2.freeIdx = s.freeIdx ∧
      (State.lookup k code p s).2.pending = s.pending := by
  simp only [State.lookup]
  repeat' split
  all_goals simp

@[simp] theorem State.answerQuery_frame (src : Station) (tag code : Nat) (p : Purpose) (s : State) :
    (State.answerQuery src tag code p s).stn = s.stn ∧ (State.answerQuery src tag code p s).now = s.now ∧
      (State.answerQuery src tag code p s).lu = s.lu ∧ (State.answerQuery src tag code p s).bu = s.bu ∧
      (State.answerQuery src tag code p s).ju = s.ju ∧ (State.answerQuery src tag code p s).lrc = s.lrc ∧
      (State.answerQuery src tag code p s).fu = s.fu ∧ (State.answerQuery src tag code p s).gu = s.gu ∧
      (State.answerQuery src tag code p s).nlc = s.nlc ∧ (State.answerQuery src tag code p s).sc = s.sc ∧
      (State.answerQuery src tag code p s).deferred = s.deferred ∧ (State.answerQuery src tag code p s).out = s.out ∧
      (State.answerQuery src tag code p s).freeIdx = s.freeIdx ∧
      (State.answerQuery src tag code p s).pending = s.pending := by
  unfold State.answerQuery; repeat' split
  all_goals simp

@[simp] theorem State.takeUsable_frame (k : TillNo) (src : Station) (gen : Nat) (item : ItemRecord) (level : Nat) (s : State) :
    (State.takeUsable k src gen item level s).2.stn = s.stn ∧
      (State.takeUsable k src gen item level s).2.now = s.now ∧
      (State.takeUsable k src gen item level s).2.tp = s.tp ∧ (State.takeUsable k src gen item level s).2.is = s.is ∧
      (State.takeUsable k src gen item level s).2.bu = s.bu ∧ (State.takeUsable k src gen item level s).2.ju = s.ju ∧
      (State.takeUsable k src gen item level s).2.lrc = s.lrc ∧
      (State.takeUsable k src gen item level s).2.fu = s.fu ∧ (State.takeUsable k src gen item level s).2.gu = s.gu ∧
      (State.takeUsable k src gen item level s).2.nlc = s.nlc ∧
      (State.takeUsable k src gen item level s).2.sc = s.sc ∧
      (State.takeUsable k src gen item level s).2.deferred = s.deferred ∧
      (State.takeUsable k src gen item level s).2.out = s.out ∧
      (State.takeUsable k src gen item level s).2.freeIdx = s.freeIdx ∧
      (State.takeUsable k src gen item level s).2.pending = s.pending := by
  simp only [State.takeUsable]
  repeat' split
  all_goals simp

@[simp] theorem State.takeAnswer_frame (src : Station) (tag gen : Nat) (item : ItemRecord) (level : Nat) (s : State) :
    (State.takeAnswer src tag gen item level s).2.stn = s.stn ∧
      (State.takeAnswer src tag gen item level s).2.now = s.now ∧
      (State.takeAnswer src tag gen item level s).2.is = s.is ∧
      (State.takeAnswer src tag gen item level s).2.bu = s.bu ∧
      (State.takeAnswer src tag gen item level s).2.ju = s.ju ∧
      (State.takeAnswer src tag gen item level s).2.lrc = s.lrc ∧
      (State.takeAnswer src tag gen item level s).2.fu = s.fu ∧
      (State.takeAnswer src tag gen item level s).2.gu = s.gu ∧
      (State.takeAnswer src tag gen item level s).2.nlc = s.nlc ∧
      (State.takeAnswer src tag gen item level s).2.sc = s.sc ∧
      (State.takeAnswer src tag gen item level s).2.deferred = s.deferred ∧
      (State.takeAnswer src tag gen item level s).2.out = s.out ∧
      (State.takeAnswer src tag gen item level s).2.freeIdx = s.freeIdx ∧
      (State.takeAnswer src tag gen item level s).2.pending = s.pending := by
  unfold State.takeAnswer; repeat' split
  all_goals simp

@[simp] theorem State.onTill_frame (k : TillNo) (f : TillRec → TillRec) (s : State) :
    (State.onTill k f s).stn = s.stn ∧ (State.onTill k f s).now = s.now ∧ (State.onTill k f s).tp = s.tp ∧
      (State.onTill k f s).is = s.is ∧ (State.onTill k f s).lu = s.lu ∧ (State.onTill k f s).ju = s.ju ∧
      (State.onTill k f s).lrc = s.lrc ∧ (State.onTill k f s).fu = s.fu ∧ (State.onTill k f s).gu = s.gu ∧
      (State.onTill k f s).nlc = s.nlc ∧ (State.onTill k f s).sc = s.sc ∧
      (State.onTill k f s).deferred = s.deferred ∧ (State.onTill k f s).out = s.out ∧
      (State.onTill k f s).freeIdx = s.freeIdx ∧ (State.onTill k f s).pending = s.pending := by
  unfold State.onTill
  simp

@[simp] theorem State.onBasket_frame (k : TillNo) (f : Basket → Basket) (s : State) :
    (State.onBasket k f s).stn = s.stn ∧ (State.onBasket k f s).now = s.now ∧ (State.onBasket k f s).tp = s.tp ∧
      (State.onBasket k f s).is = s.is ∧ (State.onBasket k f s).lu = s.lu ∧ (State.onBasket k f s).ju = s.ju ∧
      (State.onBasket k f s).lrc = s.lrc ∧ (State.onBasket k f s).fu = s.fu ∧ (State.onBasket k f s).gu = s.gu ∧
      (State.onBasket k f s).nlc = s.nlc ∧ (State.onBasket k f s).sc = s.sc ∧
      (State.onBasket k f s).deferred = s.deferred ∧ (State.onBasket k f s).out = s.out ∧
      (State.onBasket k f s).freeIdx = s.freeIdx ∧ (State.onBasket k f s).pending = s.pending := by
  unfold State.onBasket
  simp

@[simp] theorem State.answer_frame (k : TillNo) (tag : Nat) (a : Answer) (s : State) :
    (State.answer k tag a s).stn = s.stn ∧ (State.answer k tag a s).now = s.now ∧
      (State.answer k tag a s).tp = s.tp ∧ (State.answer k tag a s).is = s.is ∧ (State.answer k tag a s).lu = s.lu ∧
      (State.answer k tag a s).bu = s.bu ∧ (State.answer k tag a s).ju = s.ju ∧
      (State.answer k tag a s).lrc = s.lrc ∧ (State.answer k tag a s).fu = s.fu ∧
      (State.answer k tag a s).gu = s.gu ∧ (State.answer k tag a s).nlc = s.nlc ∧
      (State.answer k tag a s).sc = s.sc ∧ (State.answer k tag a s).deferred = s.deferred ∧
      (State.answer k tag a s).freeIdx = s.freeIdx ∧ (State.answer k tag a s).pending = s.pending := by
  unfold State.answer
  simp

@[simp] theorem State.refuse_frame (k : TillNo) (tag : Nat) (r : Refused) (s : State) :
    (State.refuse k tag r s).stn = s.stn ∧ (State.refuse k tag r s).now = s.now ∧
      (State.refuse k tag r s).tp = s.tp ∧ (State.refuse k tag r s).is = s.is ∧ (State.refuse k tag r s).lu = s.lu ∧
      (State.refuse k tag r s).bu = s.bu ∧ (State.refuse k tag r s).ju = s.ju ∧
      (State.refuse k tag r s).lrc = s.lrc ∧ (State.refuse k tag r s).fu = s.fu ∧
      (State.refuse k tag r s).gu = s.gu ∧ (State.refuse k tag r s).nlc = s.nlc ∧
      (State.refuse k tag r s).sc = s.sc ∧ (State.refuse k tag r s).deferred = s.deferred ∧
      (State.refuse k tag r s).freeIdx = s.freeIdx ∧ (State.refuse k tag r s).pending = s.pending := by
  unfold State.refuse
  simp

@[simp] theorem State.endRequest_frame (k : TillNo) (s : State) :
    (State.endRequest k s).stn = s.stn ∧ (State.endRequest k s).now = s.now ∧ (State.endRequest k s).tp = s.tp ∧
      (State.endRequest k s).is = s.is ∧ (State.endRequest k s).lu = s.lu ∧ (State.endRequest k s).ju = s.ju ∧
      (State.endRequest k s).lrc = s.lrc ∧ (State.endRequest k s).fu = s.fu ∧ (State.endRequest k s).gu = s.gu ∧
      (State.endRequest k s).nlc = s.nlc ∧ (State.endRequest k s).sc = s.sc ∧
      (State.endRequest k s).deferred = s.deferred ∧ (State.endRequest k s).out = s.out ∧
      (State.endRequest k s).freeIdx = s.freeIdx ∧ (State.endRequest k s).pending = s.pending := by
  unfold State.endRequest
  simp

@[simp] theorem State.waitRecovery_frame (k : TillNo) (tag : Nat) (kind : ReqKind) (w : Waiting) (s : State) :
    (State.waitRecovery k tag kind w s).stn = s.stn ∧ (State.waitRecovery k tag kind w s).now = s.now ∧
      (State.waitRecovery k tag kind w s).tp = s.tp ∧ (State.waitRecovery k tag kind w s).is = s.is ∧
      (State.waitRecovery k tag kind w s).lu = s.lu ∧ (State.waitRecovery k tag kind w s).ju = s.ju ∧
      (State.waitRecovery k tag kind w s).lrc = s.lrc ∧ (State.waitRecovery k tag kind w s).fu = s.fu ∧
      (State.waitRecovery k tag kind w s).gu = s.gu ∧ (State.waitRecovery k tag kind w s).nlc = s.nlc ∧
      (State.waitRecovery k tag kind w s).sc = s.sc ∧ (State.waitRecovery k tag kind w s).out = s.out ∧
      (State.waitRecovery k tag kind w s).freeIdx = s.freeIdx ∧
      (State.waitRecovery k tag kind w s).pending = s.pending := by
  unfold State.waitRecovery
  simp

@[simp] theorem State.answerLine_frame (k : TillNo) (tag n : Nat) (s : State) :
    (State.answerLine k tag n s).stn = s.stn ∧ (State.answerLine k tag n s).now = s.now ∧
      (State.answerLine k tag n s).tp = s.tp ∧ (State.answerLine k tag n s).is = s.is ∧
      (State.answerLine k tag n s).lu = s.lu ∧ (State.answerLine k tag n s).bu = s.bu ∧
      (State.answerLine k tag n s).ju = s.ju ∧ (State.answerLine k tag n s).lrc = s.lrc ∧
      (State.answerLine k tag n s).fu = s.fu ∧ (State.answerLine k tag n s).gu = s.gu ∧
      (State.answerLine k tag n s).nlc = s.nlc ∧ (State.answerLine k tag n s).sc = s.sc ∧
      (State.answerLine k tag n s).deferred = s.deferred ∧ (State.answerLine k tag n s).freeIdx = s.freeIdx ∧
      (State.answerLine k tag n s).pending = s.pending := by
  unfold State.answerLine; repeat' split
  all_goals simp

@[simp] theorem State.addLine_frame (k : TillNo) (tag : Nat) (l : Line) (s : State) :
    (State.addLine k tag l s).stn = s.stn ∧ (State.addLine k tag l s).now = s.now ∧
      (State.addLine k tag l s).tp = s.tp ∧ (State.addLine k tag l s).is = s.is ∧
      (State.addLine k tag l s).lu = s.lu ∧ (State.addLine k tag l s).lrc = s.lrc ∧
      (State.addLine k tag l s).fu = s.fu ∧ (State.addLine k tag l s).gu = s.gu ∧
      (State.addLine k tag l s).nlc = s.nlc ∧ (State.addLine k tag l s).sc = s.sc ∧
      (State.addLine k tag l s).deferred = s.deferred ∧ (State.addLine k tag l s).freeIdx = s.freeIdx ∧
      (State.addLine k tag l s).pending = s.pending := by
  by_cases h : s.ju.grants (s.basket k).lineNeeds <;> simp [State.addLine, State.reserveFor, h]

@[simp] theorem State.takeLine_frame (k : TillNo) (tag : Nat) (l : Line) (s : State) :
    (State.takeLine k tag l s).stn = s.stn ∧ (State.takeLine k tag l s).now = s.now ∧
      (State.takeLine k tag l s).tp = s.tp ∧ (State.takeLine k tag l s).is = s.is ∧
      (State.takeLine k tag l s).lu = s.lu ∧ (State.takeLine k tag l s).lrc = s.lrc ∧
      (State.takeLine k tag l s).fu = s.fu ∧ (State.takeLine k tag l s).gu = s.gu ∧
      (State.takeLine k tag l s).nlc = s.nlc ∧ (State.takeLine k tag l s).sc = s.sc ∧
      (State.takeLine k tag l s).freeIdx = s.freeIdx ∧ (State.takeLine k tag l s).pending = s.pending := by
  unfold State.takeLine; repeat' split
  all_goals simp

@[simp] theorem State.finishScan_frame (k : TillNo) (tag : Nat) (m : Measure) (r : LookupResult) (s : State) :
    (State.finishScan k tag m r s).stn = s.stn ∧ (State.finishScan k tag m r s).now = s.now ∧
      (State.finishScan k tag m r s).tp = s.tp ∧ (State.finishScan k tag m r s).is = s.is ∧
      (State.finishScan k tag m r s).lu = s.lu ∧ (State.finishScan k tag m r s).lrc = s.lrc ∧
      (State.finishScan k tag m r s).fu = s.fu ∧ (State.finishScan k tag m r s).gu = s.gu ∧
      (State.finishScan k tag m r s).nlc = s.nlc ∧ (State.finishScan k tag m r s).sc = s.sc ∧
      (State.finishScan k tag m r s).freeIdx = s.freeIdx ∧ (State.finishScan k tag m r s).pending = s.pending := by
  unfold State.finishScan; repeat' split
  all_goals simp

@[simp] theorem State.finishEnquire_frame (k : TillNo) (tag : Nat) (r : LookupResult) (s : State) :
    (State.finishEnquire k tag r s).stn = s.stn ∧ (State.finishEnquire k tag r s).now = s.now ∧
      (State.finishEnquire k tag r s).tp = s.tp ∧ (State.finishEnquire k tag r s).is = s.is ∧
      (State.finishEnquire k tag r s).lu = s.lu ∧ (State.finishEnquire k tag r s).bu = s.bu ∧
      (State.finishEnquire k tag r s).ju = s.ju ∧ (State.finishEnquire k tag r s).lrc = s.lrc ∧
      (State.finishEnquire k tag r s).fu = s.fu ∧ (State.finishEnquire k tag r s).gu = s.gu ∧
      (State.finishEnquire k tag r s).nlc = s.nlc ∧ (State.finishEnquire k tag r s).sc = s.sc ∧
      (State.finishEnquire k tag r s).deferred = s.deferred ∧ (State.finishEnquire k tag r s).freeIdx = s.freeIdx ∧
      (State.finishEnquire k tag r s).pending = s.pending := by
  unfold State.finishEnquire; repeat' split
  all_goals simp

@[simp] theorem State.waitLookup_frame (k : TillNo) (tag : Nat) (kind : ReqKind) (scan : PendingScan) (s : State) :
    (State.waitLookup k tag kind scan s).stn = s.stn ∧ (State.waitLookup k tag kind scan s).now = s.now ∧
      (State.waitLookup k tag kind scan s).tp = s.tp ∧ (State.waitLookup k tag kind scan s).is = s.is ∧
      (State.waitLookup k tag kind scan s).lu = s.lu ∧ (State.waitLookup k tag kind scan s).ju = s.ju ∧
      (State.waitLookup k tag kind scan s).lrc = s.lrc ∧ (State.waitLookup k tag kind scan s).fu = s.fu ∧
      (State.waitLookup k tag kind scan s).gu = s.gu ∧ (State.waitLookup k tag kind scan s).nlc = s.nlc ∧
      (State.waitLookup k tag kind scan s).sc = s.sc ∧ (State.waitLookup k tag kind scan s).deferred = s.deferred ∧
      (State.waitLookup k tag kind scan s).out = s.out ∧ (State.waitLookup k tag kind scan s).freeIdx = s.freeIdx ∧
      (State.waitLookup k tag kind scan s).pending = s.pending := by
  unfold State.waitLookup
  simp

@[simp] theorem State.scanItem_frame (k : TillNo) (tag code : Nat) (m : Measure) (s : State) :
    (State.scanItem k tag code m s).stn = s.stn ∧ (State.scanItem k tag code m s).now = s.now ∧
      (State.scanItem k tag code m s).lrc = s.lrc ∧ (State.scanItem k tag code m s).fu = s.fu ∧
      (State.scanItem k tag code m s).gu = s.gu ∧ (State.scanItem k tag code m s).nlc = s.nlc ∧
      (State.scanItem k tag code m s).sc = s.sc ∧ (State.scanItem k tag code m s).freeIdx = s.freeIdx ∧
      (State.scanItem k tag code m s).pending = s.pending := by
  simp only [State.scanItem]
  repeat' split
  all_goals simp

@[simp] theorem State.enquireItem_frame (k : TillNo) (tag code : Nat) (s : State) :
    (State.enquireItem k tag code s).stn = s.stn ∧ (State.enquireItem k tag code s).now = s.now ∧
      (State.enquireItem k tag code s).ju = s.ju ∧ (State.enquireItem k tag code s).lrc = s.lrc ∧
      (State.enquireItem k tag code s).fu = s.fu ∧ (State.enquireItem k tag code s).gu = s.gu ∧
      (State.enquireItem k tag code s).nlc = s.nlc ∧ (State.enquireItem k tag code s).sc = s.sc ∧
      (State.enquireItem k tag code s).deferred = s.deferred ∧ (State.enquireItem k tag code s).freeIdx = s.freeIdx ∧
      (State.enquireItem k tag code s).pending = s.pending := by
  simp only [State.enquireItem]
  repeat' split
  all_goals simp

@[simp] theorem State.lookupDone_frame (k : TillNo) (r : LookupResult) (s : State) :
    (State.lookupDone k r s).stn = s.stn ∧ (State.lookupDone k r s).now = s.now ∧ (State.lookupDone k r s).tp = s.tp ∧
      (State.lookupDone k r s).is = s.is ∧ (State.lookupDone k r s).lu = s.lu ∧ (State.lookupDone k r s).lrc = s.lrc ∧
      (State.lookupDone k r s).fu = s.fu ∧ (State.lookupDone k r s).gu = s.gu ∧ (State.lookupDone k r s).nlc = s.nlc ∧
      (State.lookupDone k r s).sc = s.sc ∧ (State.lookupDone k r s).freeIdx = s.freeIdx ∧
      (State.lookupDone k r s).pending = s.pending := by
  unfold State.lookupDone; repeat' split
  all_goals simp

/-- A query that fails for want of a trunk defers nothing. -/
@[simp] theorem State.lookupDone_noTrunk_deferred (k : TillNo) (s : State) :
    (State.lookupDone k .noTrunk s).deferred = s.deferred := by
  unfold State.lookupDone; repeat' split
  all_goals simp_all [State.finishScan, State.finishEnquire, LookupResult.refusal]

@[simp] theorem State.failQueries_frame (s : State) :
    (State.failQueries s).stn = s.stn ∧ (State.failQueries s).now = s.now ∧ (State.failQueries s).tp = s.tp ∧
      (State.failQueries s).is = s.is ∧ (State.failQueries s).lrc = s.lrc ∧ (State.failQueries s).fu = s.fu ∧
      (State.failQueries s).gu = s.gu ∧ (State.failQueries s).nlc = s.nlc ∧ (State.failQueries s).sc = s.sc ∧
      (State.failQueries s).deferred = s.deferred ∧ (State.failQueries s).freeIdx = s.freeIdx ∧
      (State.failQueries s).pending = s.pending := by
  unfold State.failQueries; and_intros
  all_goals exact (foldl_keeps _ _ (by intro s a; simp) _ _).trans (by simp)

@[simp] theorem State.answerTotals_frame (k : TillNo) (tag : Nat) (s : State) :
    (State.answerTotals k tag s).stn = s.stn ∧ (State.answerTotals k tag s).now = s.now ∧
      (State.answerTotals k tag s).tp = s.tp ∧ (State.answerTotals k tag s).is = s.is ∧
      (State.answerTotals k tag s).lu = s.lu ∧ (State.answerTotals k tag s).bu = s.bu ∧
      (State.answerTotals k tag s).ju = s.ju ∧ (State.answerTotals k tag s).lrc = s.lrc ∧
      (State.answerTotals k tag s).fu = s.fu ∧ (State.answerTotals k tag s).gu = s.gu ∧
      (State.answerTotals k tag s).nlc = s.nlc ∧ (State.answerTotals k tag s).sc = s.sc ∧
      (State.answerTotals k tag s).deferred = s.deferred ∧ (State.answerTotals k tag s).freeIdx = s.freeIdx ∧
      (State.answerTotals k tag s).pending = s.pending := by
  unfold State.answerTotals
  simp

@[simp] theorem State.computeTax_frame (k : TillNo) (s : State) :
    (State.computeTax k s).stn = s.stn ∧ (State.computeTax k s).now = s.now ∧ (State.computeTax k s).tp = s.tp ∧
      (State.computeTax k s).is = s.is ∧ (State.computeTax k s).lu = s.lu ∧ (State.computeTax k s).ju = s.ju ∧
      (State.computeTax k s).lrc = s.lrc ∧ (State.computeTax k s).fu = s.fu ∧ (State.computeTax k s).gu = s.gu ∧
      (State.computeTax k s).nlc = s.nlc ∧ (State.computeTax k s).sc = s.sc ∧
      (State.computeTax k s).deferred = s.deferred ∧ (State.computeTax k s).out = s.out ∧
      (State.computeTax k s).freeIdx = s.freeIdx ∧ (State.computeTax k s).pending = s.pending := by
  unfold State.computeTax
  simp

@[simp] theorem State.handGroup_frame (k : TillNo) (tag : Nat) (kind : ReqKind) (last : JBody) (info : CloseInfo) (s : State) :
    (State.handGroup k tag kind last info s).stn = s.stn ∧ (State.handGroup k tag kind last info s).now = s.now ∧
      (State.handGroup k tag kind last info s).tp = s.tp ∧ (State.handGroup k tag kind last info s).is = s.is ∧
      (State.handGroup k tag kind last info s).lu = s.lu ∧ (State.handGroup k tag kind last info s).lrc = s.lrc ∧
      (State.handGroup k tag kind last info s).fu = s.fu ∧ (State.handGroup k tag kind last info s).gu = s.gu ∧
      (State.handGroup k tag kind last info s).nlc = s.nlc ∧ (State.handGroup k tag kind last info s).sc = s.sc ∧
      (State.handGroup k tag kind last info s).deferred = s.deferred ∧
      (State.handGroup k tag kind last info s).out = s.out ∧
      (State.handGroup k tag kind last info s).freeIdx = s.freeIdx ∧
      (State.handGroup k tag kind last info s).pending = s.pending := by
  unfold State.handGroup
  simp

@[simp] theorem State.closeSale_frame (k : TillNo) (tag : Nat) (kind : ReqKind) (paid : Int) (due : Option Int) (rounding : Int)
    (s : State) :
    (State.closeSale k tag kind paid due rounding s).stn = s.stn ∧
      (State.closeSale k tag kind paid due rounding s).now = s.now ∧
      (State.closeSale k tag kind paid due rounding s).tp = s.tp ∧
      (State.closeSale k tag kind paid due rounding s).is = s.is ∧
      (State.closeSale k tag kind paid due rounding s).lu = s.lu ∧
      (State.closeSale k tag kind paid due rounding s).lrc = s.lrc ∧
      (State.closeSale k tag kind paid due rounding s).fu = s.fu ∧
      (State.closeSale k tag kind paid due rounding s).nlc = s.nlc ∧
      (State.closeSale k tag kind paid due rounding s).sc = s.sc ∧
      (State.closeSale k tag kind paid due rounding s).deferred = s.deferred ∧
      (State.closeSale k tag kind paid due rounding s).out = s.out ∧
      (State.closeSale k tag kind paid due rounding s).freeIdx = s.freeIdx ∧
      (State.closeSale k tag kind paid due rounding s).pending = s.pending := by
  unfold State.closeSale
  simp

@[simp] theorem State.closeCancel_frame (k : TillNo) (tag : Nat) (s : State) :
    (State.closeCancel k tag s).stn = s.stn ∧ (State.closeCancel k tag s).now = s.now ∧
      (State.closeCancel k tag s).tp = s.tp ∧ (State.closeCancel k tag s).is = s.is ∧
      (State.closeCancel k tag s).lu = s.lu ∧ (State.closeCancel k tag s).lrc = s.lrc ∧
      (State.closeCancel k tag s).fu = s.fu ∧ (State.closeCancel k tag s).gu = s.gu ∧
      (State.closeCancel k tag s).nlc = s.nlc ∧ (State.closeCancel k tag s).sc = s.sc ∧
      (State.closeCancel k tag s).deferred = s.deferred ∧ (State.closeCancel k tag s).out = s.out ∧
      (State.closeCancel k tag s).freeIdx = s.freeIdx ∧ (State.closeCancel k tag s).pending = s.pending := by
  unfold State.closeCancel
  simp

@[simp] theorem State.applyTender_frame (k : TillNo) (tag : Nat) (m : TenderMethod) (t : Nat) (s : State) :
    (State.applyTender k tag m t s).stn = s.stn ∧ (State.applyTender k tag m t s).now = s.now ∧
      (State.applyTender k tag m t s).tp = s.tp ∧ (State.applyTender k tag m t s).is = s.is ∧
      (State.applyTender k tag m t s).lu = s.lu ∧ (State.applyTender k tag m t s).lrc = s.lrc ∧
      (State.applyTender k tag m t s).fu = s.fu ∧ (State.applyTender k tag m t s).nlc = s.nlc ∧
      (State.applyTender k tag m t s).sc = s.sc ∧ (State.applyTender k tag m t s).deferred = s.deferred ∧
      (State.applyTender k tag m t s).freeIdx = s.freeIdx ∧ (State.applyTender k tag m t s).pending = s.pending := by
  simp only [State.applyTender]
  repeat' split
  all_goals simp

@[simp] theorem State.groupDone_frame (h : Holder) (group : Seq) (s : State) :
    (State.groupDone h group s).stn = s.stn ∧ (State.groupDone h group s).now = s.now ∧
      (State.groupDone h group s).tp = s.tp ∧ (State.groupDone h group s).is = s.is ∧
      (State.groupDone h group s).lu = s.lu ∧ (State.groupDone h group s).ju = s.ju ∧
      (State.groupDone h group s).lrc = s.lrc ∧ (State.groupDone h group s).fu = s.fu ∧
      (State.groupDone h group s).gu = s.gu ∧ (State.groupDone h group s).nlc = s.nlc ∧
      (State.groupDone h group s).sc = s.sc ∧ (State.groupDone h group s).deferred = s.deferred ∧
      (State.groupDone h group s).freeIdx = s.freeIdx ∧ (State.groupDone h group s).pending = s.pending := by
  simp only [State.groupDone]
  repeat' split
  all_goals simp

@[simp] theorem State.groupWritten_frame (s : State) :
    (State.groupWritten s).stn = s.stn ∧ (State.groupWritten s).now = s.now ∧ (State.groupWritten s).is = s.is ∧
      (State.groupWritten s).lu = s.lu ∧ (State.groupWritten s).lrc = s.lrc ∧ (State.groupWritten s).sc = s.sc ∧
      (State.groupWritten s).deferred = s.deferred ∧ (State.groupWritten s).freeIdx = s.freeIdx ∧
      (State.groupWritten s).pending = s.pending := by
  unfold State.groupWritten; repeat' split
  all_goals simp

@[simp] theorem State.onSlot_frame (j : ParkNo) (f : ParkEntry → ParkEntry) (s : State) :
    (State.onSlot j f s).stn = s.stn ∧ (State.onSlot j f s).now = s.now ∧ (State.onSlot j f s).tp = s.tp ∧
      (State.onSlot j f s).is = s.is ∧ (State.onSlot j f s).lu = s.lu ∧ (State.onSlot j f s).ju = s.ju ∧
      (State.onSlot j f s).lrc = s.lrc ∧ (State.onSlot j f s).fu = s.fu ∧ (State.onSlot j f s).gu = s.gu ∧
      (State.onSlot j f s).nlc = s.nlc ∧ (State.onSlot j f s).sc = s.sc ∧
      (State.onSlot j f s).deferred = s.deferred ∧ (State.onSlot j f s).out = s.out ∧
      (State.onSlot j f s).freeIdx = s.freeIdx ∧ (State.onSlot j f s).pending = s.pending := by
  unfold State.onSlot
  simp

@[simp] theorem State.parkBasket_frame (k : TillNo) (tag : Nat) (s : State) :
    (State.parkBasket k tag s).stn = s.stn ∧ (State.parkBasket k tag s).now = s.now ∧
      (State.parkBasket k tag s).tp = s.tp ∧ (State.parkBasket k tag s).is = s.is ∧
      (State.parkBasket k tag s).lu = s.lu ∧ (State.parkBasket k tag s).ju = s.ju ∧
      (State.parkBasket k tag s).lrc = s.lrc ∧ (State.parkBasket k tag s).fu = s.fu ∧
      (State.parkBasket k tag s).gu = s.gu ∧ (State.parkBasket k tag s).nlc = s.nlc ∧
      (State.parkBasket k tag s).sc = s.sc ∧ (State.parkBasket k tag s).deferred = s.deferred ∧
      (State.parkBasket k tag s).freeIdx = s.freeIdx ∧ (State.parkBasket k tag s).pending = s.pending := by
  unfold State.parkBasket; repeat' split
  all_goals simp

@[simp] theorem State.install_frame (k : TillNo) (tag ticket : Nat) (c : ParkContent) (held : Nat) (s : State) :
    (State.install k tag ticket c held s).stn = s.stn ∧ (State.install k tag ticket c held s).now = s.now ∧
      (State.install k tag ticket c held s).tp = s.tp ∧ (State.install k tag ticket c held s).is = s.is ∧
      (State.install k tag ticket c held s).lu = s.lu ∧ (State.install k tag ticket c held s).ju = s.ju ∧
      (State.install k tag ticket c held s).lrc = s.lrc ∧ (State.install k tag ticket c held s).fu = s.fu ∧
      (State.install k tag ticket c held s).gu = s.gu ∧ (State.install k tag ticket c held s).nlc = s.nlc ∧
      (State.install k tag ticket c held s).sc = s.sc ∧ (State.install k tag ticket c held s).deferred = s.deferred ∧
      (State.install k tag ticket c held s).freeIdx = s.freeIdx ∧
      (State.install k tag ticket c held s).pending = s.pending := by
  unfold State.install
  simp

@[simp] theorem State.recallLocal_frame (k : TillNo) (tag : Nat) (j : ParkNo) (s : State) :
    (State.recallLocal k tag j s).stn = s.stn ∧ (State.recallLocal k tag j s).now = s.now ∧
      (State.recallLocal k tag j s).tp = s.tp ∧ (State.recallLocal k tag j s).is = s.is ∧
      (State.recallLocal k tag j s).lu = s.lu ∧ (State.recallLocal k tag j s).ju = s.ju ∧
      (State.recallLocal k tag j s).lrc = s.lrc ∧ (State.recallLocal k tag j s).fu = s.fu ∧
      (State.recallLocal k tag j s).gu = s.gu ∧ (State.recallLocal k tag j s).nlc = s.nlc ∧
      (State.recallLocal k tag j s).sc = s.sc ∧ (State.recallLocal k tag j s).deferred = s.deferred ∧
      (State.recallLocal k tag j s).freeIdx = s.freeIdx ∧ (State.recallLocal k tag j s).pending = s.pending := by
  unfold State.recallLocal; repeat' split
  all_goals simp

@[simp] theorem State.onCtx_frame (k : TillNo) (f : RecallCtx → RecallCtx) (s : State) :
    (State.onCtx k f s).stn = s.stn ∧ (State.onCtx k f s).now = s.now ∧ (State.onCtx k f s).tp = s.tp ∧
      (State.onCtx k f s).is = s.is ∧ (State.onCtx k f s).lu = s.lu ∧ (State.onCtx k f s).ju = s.ju ∧
      (State.onCtx k f s).lrc = s.lrc ∧ (State.onCtx k f s).fu = s.fu ∧ (State.onCtx k f s).gu = s.gu ∧
      (State.onCtx k f s).nlc = s.nlc ∧ (State.onCtx k f s).sc = s.sc ∧ (State.onCtx k f s).deferred = s.deferred ∧
      (State.onCtx k f s).out = s.out ∧ (State.onCtx k f s).freeIdx = s.freeIdx ∧
      (State.onCtx k f s).pending = s.pending := by
  unfold State.onCtx
  simp

@[simp] theorem State.failRecall_frame (k : TillNo) (r : Refused) (s : State) :
    (State.failRecall k r s).stn = s.stn ∧ (State.failRecall k r s).now = s.now ∧
      (State.failRecall k r s).tp = s.tp ∧ (State.failRecall k r s).is = s.is ∧ (State.failRecall k r s).lu = s.lu ∧
      (State.failRecall k r s).lrc = s.lrc ∧ (State.failRecall k r s).fu = s.fu ∧
      (State.failRecall k r s).gu = s.gu ∧ (State.failRecall k r s).nlc = s.nlc ∧
      (State.failRecall k r s).sc = s.sc ∧ (State.failRecall k r s).deferred = s.deferred ∧
      (State.failRecall k r s).freeIdx = s.freeIdx ∧ (State.failRecall k r s).pending = s.pending := by
  unfold State.failRecall
  simp

@[simp] theorem State.recallRemote_frame (k : TillNo) (tag ticket : Nat) (owner : Station) (s : State) :
    (State.recallRemote k tag ticket owner s).stn = s.stn ∧ (State.recallRemote k tag ticket owner s).now = s.now ∧
      (State.recallRemote k tag ticket owner s).is = s.is ∧ (State.recallRemote k tag ticket owner s).lu = s.lu ∧
      (State.recallRemote k tag ticket owner s).lrc = s.lrc ∧ (State.recallRemote k tag ticket owner s).fu = s.fu ∧
      (State.recallRemote k tag ticket owner s).gu = s.gu ∧ (State.recallRemote k tag ticket owner s).nlc = s.nlc ∧
      (State.recallRemote k tag ticket owner s).sc = s.sc ∧
      (State.recallRemote k tag ticket owner s).freeIdx = s.freeIdx ∧
      (State.recallRemote k tag ticket owner s).pending = s.pending := by
  simp only [State.recallRemote]
  repeat' split
  all_goals simp

@[simp] theorem State.releaseIfWhole_frame (k : TillNo) (s : State) :
    (State.releaseIfWhole k s).stn = s.stn ∧ (State.releaseIfWhole k s).now = s.now ∧
      (State.releaseIfWhole k s).is = s.is ∧ (State.releaseIfWhole k s).lu = s.lu ∧
      (State.releaseIfWhole k s).lrc = s.lrc ∧ (State.releaseIfWhole k s).fu = s.fu ∧
      (State.releaseIfWhole k s).gu = s.gu ∧ (State.releaseIfWhole k s).nlc = s.nlc ∧
      (State.releaseIfWhole k s).sc = s.sc ∧ (State.releaseIfWhole k s).deferred = s.deferred ∧
      (State.releaseIfWhole k s).freeIdx = s.freeIdx ∧ (State.releaseIfWhole k s).pending = s.pending := by
  simp only [State.releaseIfWhole]
  repeat' split
  all_goals simp

@[simp] theorem State.recordPart_frame (k : TillNo) (p : ParkPart) (s : State) :
    (State.recordPart k p s).stn = s.stn ∧ (State.recordPart k p s).now = s.now ∧
      (State.recordPart k p s).is = s.is ∧ (State.recordPart k p s).lu = s.lu ∧
      (State.recordPart k p s).lrc = s.lrc ∧ (State.recordPart k p s).fu = s.fu ∧
      (State.recordPart k p s).gu = s.gu ∧ (State.recordPart k p s).nlc = s.nlc ∧
      (State.recordPart k p s).sc = s.sc ∧ (State.recordPart k p s).deferred = s.deferred ∧
      (State.recordPart k p s).freeIdx = s.freeIdx ∧ (State.recordPart k p s).pending = s.pending := by
  unfold State.recordPart
  simp

@[simp] theorem State.takeFirst_frame (k : TillNo) (p : ParkPart) (h : ParkHead) (s : State) :
    (State.takeFirst k p h s).stn = s.stn ∧ (State.takeFirst k p h s).now = s.now ∧
      (State.takeFirst k p h s).is = s.is ∧ (State.takeFirst k p h s).lu = s.lu ∧
      (State.takeFirst k p h s).lrc = s.lrc ∧ (State.takeFirst k p h s).fu = s.fu ∧
      (State.takeFirst k p h s).gu = s.gu ∧ (State.takeFirst k p h s).nlc = s.nlc ∧
      (State.takeFirst k p h s).sc = s.sc ∧ (State.takeFirst k p h s).deferred = s.deferred ∧
      (State.takeFirst k p h s).freeIdx = s.freeIdx ∧ (State.takeFirst k p h s).pending = s.pending := by
  unfold State.takeFirst; repeat' split
  all_goals simp

@[simp] theorem State.takePark_frame (src : Station) (tag ticket : Nat) (p : ParkPart) (s : State) :
    (State.takePark src tag ticket p s).stn = s.stn ∧ (State.takePark src tag ticket p s).now = s.now ∧
      (State.takePark src tag ticket p s).is = s.is ∧ (State.takePark src tag ticket p s).lu = s.lu ∧
      (State.takePark src tag ticket p s).lrc = s.lrc ∧ (State.takePark src tag ticket p s).fu = s.fu ∧
      (State.takePark src tag ticket p s).gu = s.gu ∧ (State.takePark src tag ticket p s).nlc = s.nlc ∧
      (State.takePark src tag ticket p s).sc = s.sc ∧ (State.takePark src tag ticket p s).deferred = s.deferred ∧
      (State.takePark src tag ticket p s).freeIdx = s.freeIdx ∧
      (State.takePark src tag ticket p s).pending = s.pending := by
  simp only [State.takePark]
  repeat' split
  all_goals simp

@[simp] theorem State.completeRecall_frame (k : TillNo) (s : State) :
    (State.completeRecall k s).stn = s.stn ∧ (State.completeRecall k s).now = s.now ∧
      (State.completeRecall k s).tp = s.tp ∧ (State.completeRecall k s).is = s.is ∧
      (State.completeRecall k s).lu = s.lu ∧ (State.completeRecall k s).lrc = s.lrc ∧
      (State.completeRecall k s).fu = s.fu ∧ (State.completeRecall k s).gu = s.gu ∧
      (State.completeRecall k s).nlc = s.nlc ∧ (State.completeRecall k s).sc = s.sc ∧
      (State.completeRecall k s).deferred = s.deferred ∧ (State.completeRecall k s).freeIdx = s.freeIdx ∧
      (State.completeRecall k s).pending = s.pending := by
  simp only [State.completeRecall]
  repeat' split
  all_goals simp

@[simp] theorem State.takeRelease_frame (src : Station) (tag ticket : Nat) (o : ReleaseOutcome) (s : State) :
    (State.takeRelease src tag ticket o s).stn = s.stn ∧ (State.takeRelease src tag ticket o s).now = s.now ∧
      (State.takeRelease src tag ticket o s).tp = s.tp ∧ (State.takeRelease src tag ticket o s).is = s.is ∧
      (State.takeRelease src tag ticket o s).lu = s.lu ∧ (State.takeRelease src tag ticket o s).lrc = s.lrc ∧
      (State.takeRelease src tag ticket o s).fu = s.fu ∧ (State.takeRelease src tag ticket o s).gu = s.gu ∧
      (State.takeRelease src tag ticket o s).nlc = s.nlc ∧ (State.takeRelease src tag ticket o s).sc = s.sc ∧
      (State.takeRelease src tag ticket o s).deferred = s.deferred ∧
      (State.takeRelease src tag ticket o s).freeIdx = s.freeIdx ∧
      (State.takeRelease src tag ticket o s).pending = s.pending := by
  unfold State.takeRelease; repeat' split
  all_goals simp

@[simp] theorem State.recallExpired_frame (k : TillNo) (s : State) :
    (State.recallExpired k s).stn = s.stn ∧ (State.recallExpired k s).now = s.now ∧
      (State.recallExpired k s).tp = s.tp ∧ (State.recallExpired k s).is = s.is ∧
      (State.recallExpired k s).lu = s.lu ∧ (State.recallExpired k s).lrc = s.lrc ∧
      (State.recallExpired k s).fu = s.fu ∧ (State.recallExpired k s).gu = s.gu ∧
      (State.recallExpired k s).nlc = s.nlc ∧ (State.recallExpired k s).sc = s.sc ∧
      (State.recallExpired k s).deferred = s.deferred ∧ (State.recallExpired k s).freeIdx = s.freeIdx ∧
      (State.recallExpired k s).pending = s.pending := by
  unfold State.recallExpired; repeat' split
  all_goals simp

@[simp] theorem State.failRecalls_frame (p : RecallCtx → Bool) (r : Refused) (s : State) :
    (State.failRecalls p r s).stn = s.stn ∧ (State.failRecalls p r s).now = s.now ∧
      (State.failRecalls p r s).tp = s.tp ∧ (State.failRecalls p r s).is = s.is ∧
      (State.failRecalls p r s).lu = s.lu ∧ (State.failRecalls p r s).lrc = s.lrc ∧
      (State.failRecalls p r s).fu = s.fu ∧ (State.failRecalls p r s).gu = s.gu ∧
      (State.failRecalls p r s).nlc = s.nlc ∧ (State.failRecalls p r s).sc = s.sc ∧
      (State.failRecalls p r s).deferred = s.deferred ∧ (State.failRecalls p r s).freeIdx = s.freeIdx ∧
      (State.failRecalls p r s).pending = s.pending := by
  unfold State.failRecalls; generalize fins 8 = l
  induction l generalizing s with
  | nil => simp
  | cons a l ih => simp only [List.foldl_cons, ih]; split <;> simp

@[simp] theorem State.failKeptOf_frame (k : TillNo) (s : State) :
    (State.failKeptOf k s).stn = s.stn ∧ (State.failKeptOf k s).now = s.now ∧ (State.failKeptOf k s).tp = s.tp ∧
      (State.failKeptOf k s).is = s.is ∧ (State.failKeptOf k s).lu = s.lu ∧ (State.failKeptOf k s).lrc = s.lrc ∧
      (State.failKeptOf k s).fu = s.fu ∧ (State.failKeptOf k s).gu = s.gu ∧ (State.failKeptOf k s).nlc = s.nlc ∧
      (State.failKeptOf k s).sc = s.sc ∧ (State.failKeptOf k s).freeIdx = s.freeIdx ∧
      (State.failKeptOf k s).pending = s.pending := by
  unfold State.failKeptOf
  split <;> simp

@[simp] theorem State.failKept_frame (s : State) :
    (State.failKept s).stn = s.stn ∧ (State.failKept s).now = s.now ∧ (State.failKept s).tp = s.tp ∧
      (State.failKept s).is = s.is ∧ (State.failKept s).lu = s.lu ∧ (State.failKept s).lrc = s.lrc ∧
      (State.failKept s).fu = s.fu ∧ (State.failKept s).gu = s.gu ∧ (State.failKept s).nlc = s.nlc ∧
      (State.failKept s).sc = s.sc ∧ (State.failKept s).freeIdx = s.freeIdx ∧
      (State.failKept s).pending = s.pending := by
  unfold State.failKept; generalize fins 8 = l
  induction l generalizing s with
  | nil => simp
  | cons a l ih => simp only [List.foldl_cons, ih]; simp

@[simp] theorem State.abandon_frame (j : ParkNo) (s : State) :
    (State.abandon j s).stn = s.stn ∧ (State.abandon j s).now = s.now ∧ (State.abandon j s).tp = s.tp ∧
      (State.abandon j s).is = s.is ∧ (State.abandon j s).lu = s.lu ∧ (State.abandon j s).lrc = s.lrc ∧
      (State.abandon j s).fu = s.fu ∧ (State.abandon j s).gu = s.gu ∧ (State.abandon j s).nlc = s.nlc ∧
      (State.abandon j s).sc = s.sc ∧ (State.abandon j s).deferred = s.deferred ∧ (State.abandon j s).out = s.out ∧
      (State.abandon j s).freeIdx = s.freeIdx ∧ (State.abandon j s).pending = s.pending := by
  unfold State.abandon; repeat' split
  all_goals simp

@[simp] theorem State.endTransfer_frame (j : ParkNo) (s : State) :
    (State.endTransfer j s).stn = s.stn ∧ (State.endTransfer j s).now = s.now ∧ (State.endTransfer j s).tp = s.tp ∧
      (State.endTransfer j s).is = s.is ∧ (State.endTransfer j s).lu = s.lu ∧ (State.endTransfer j s).lrc = s.lrc ∧
      (State.endTransfer j s).fu = s.fu ∧ (State.endTransfer j s).gu = s.gu ∧ (State.endTransfer j s).nlc = s.nlc ∧
      (State.endTransfer j s).sc = s.sc ∧ (State.endTransfer j s).deferred = s.deferred ∧
      (State.endTransfer j s).out = s.out ∧ (State.endTransfer j s).freeIdx = s.freeIdx ∧
      (State.endTransfer j s).pending = s.pending := by
  unfold State.endTransfer; repeat' split
  all_goals simp

@[simp] theorem State.sendParts_frame (j : ParkNo) (dst : Station) (tag ticket : Nat) (x0 : List ParkPart) (s : State) :
    (State.sendParts j dst tag ticket x0 s).stn = s.stn ∧ (State.sendParts j dst tag ticket x0 s).now = s.now ∧
      (State.sendParts j dst tag ticket x0 s).is = s.is ∧ (State.sendParts j dst tag ticket x0 s).lu = s.lu ∧
      (State.sendParts j dst tag ticket x0 s).lrc = s.lrc ∧ (State.sendParts j dst tag ticket x0 s).fu = s.fu ∧
      (State.sendParts j dst tag ticket x0 s).gu = s.gu ∧ (State.sendParts j dst tag ticket x0 s).nlc = s.nlc ∧
      (State.sendParts j dst tag ticket x0 s).sc = s.sc ∧
      (State.sendParts j dst tag ticket x0 s).deferred = s.deferred ∧
      (State.sendParts j dst tag ticket x0 s).out = s.out ∧
      (State.sendParts j dst tag ticket x0 s).freeIdx = s.freeIdx ∧
      (State.sendParts j dst tag ticket x0 s).pending = s.pending := by
  induction x0 generalizing s with
  | nil => simp [State.sendParts]
  | cons a l ih => simp only [State.sendParts]; split <;> simp [ih]

@[simp] theorem State.answerRelease_frame (dst : Station) (tag ticket : Nat) (o : ReleaseOutcome) (s : State) :
    (State.answerRelease dst tag ticket o s).stn = s.stn ∧ (State.answerRelease dst tag ticket o s).now = s.now ∧
      (State.answerRelease dst tag ticket o s).is = s.is ∧ (State.answerRelease dst tag ticket o s).lu = s.lu ∧
      (State.answerRelease dst tag ticket o s).bu = s.bu ∧ (State.answerRelease dst tag ticket o s).ju = s.ju ∧
      (State.answerRelease dst tag ticket o s).lrc = s.lrc ∧ (State.answerRelease dst tag ticket o s).fu = s.fu ∧
      (State.answerRelease dst tag ticket o s).gu = s.gu ∧ (State.answerRelease dst tag ticket o s).nlc = s.nlc ∧
      (State.answerRelease dst tag ticket o s).sc = s.sc ∧
      (State.answerRelease dst tag ticket o s).deferred = s.deferred ∧
      (State.answerRelease dst tag ticket o s).out = s.out ∧
      (State.answerRelease dst tag ticket o s).freeIdx = s.freeIdx ∧
      (State.answerRelease dst tag ticket o s).pending = s.pending := by
  unfold State.answerRelease
  simp

@[simp] theorem State.takeRecall_frame (src : Station) (tag ticket : Nat) (till : TillNo) (s : State) :
    (State.takeRecall src tag ticket till s).stn = s.stn ∧ (State.takeRecall src tag ticket till s).now = s.now ∧
      (State.takeRecall src tag ticket till s).is = s.is ∧ (State.takeRecall src tag ticket till s).lu = s.lu ∧
      (State.takeRecall src tag ticket till s).lrc = s.lrc ∧ (State.takeRecall src tag ticket till s).fu = s.fu ∧
      (State.takeRecall src tag ticket till s).gu = s.gu ∧ (State.takeRecall src tag ticket till s).nlc = s.nlc ∧
      (State.takeRecall src tag ticket till s).sc = s.sc ∧
      (State.takeRecall src tag ticket till s).deferred = s.deferred ∧
      (State.takeRecall src tag ticket till s).out = s.out ∧
      (State.takeRecall src tag ticket till s).freeIdx = s.freeIdx ∧
      (State.takeRecall src tag ticket till s).pending = s.pending := by
  unfold State.takeRecall; repeat' split
  all_goals simp

@[simp] theorem State.freeReleased_frame (src : Station) (tag ticket : Nat) (s : State) :
    (State.freeReleased src tag ticket s).stn = s.stn ∧ (State.freeReleased src tag ticket s).now = s.now ∧
      (State.freeReleased src tag ticket s).is = s.is ∧ (State.freeReleased src tag ticket s).lu = s.lu ∧
      (State.freeReleased src tag ticket s).lrc = s.lrc ∧ (State.freeReleased src tag ticket s).fu = s.fu ∧
      (State.freeReleased src tag ticket s).gu = s.gu ∧ (State.freeReleased src tag ticket s).nlc = s.nlc ∧
      (State.freeReleased src tag ticket s).sc = s.sc ∧ (State.freeReleased src tag ticket s).deferred = s.deferred ∧
      (State.freeReleased src tag ticket s).out = s.out ∧ (State.freeReleased src tag ticket s).freeIdx = s.freeIdx ∧
      (State.freeReleased src tag ticket s).pending = s.pending := by
  simp only [State.freeReleased]
  repeat' split
  all_goals simp

@[simp] theorem State.abandonAll_frame (s : State) :
    (State.abandonAll s).stn = s.stn ∧ (State.abandonAll s).now = s.now ∧ (State.abandonAll s).tp = s.tp ∧
      (State.abandonAll s).is = s.is ∧ (State.abandonAll s).lu = s.lu ∧ (State.abandonAll s).lrc = s.lrc ∧
      (State.abandonAll s).fu = s.fu ∧ (State.abandonAll s).gu = s.gu ∧ (State.abandonAll s).nlc = s.nlc ∧
      (State.abandonAll s).sc = s.sc ∧ (State.abandonAll s).deferred = s.deferred ∧
      (State.abandonAll s).out = s.out ∧ (State.abandonAll s).freeIdx = s.freeIdx ∧
      (State.abandonAll s).pending = s.pending := by
  unfold State.abandonAll; generalize fins 16 = l
  induction l generalizing s with
  | nil => simp
  | cons a l ih => simp only [List.foldl_cons, ih]; split <;> simp

@[simp] theorem State.rollDay_frame (d : Int) (s : State) :
    (State.rollDay d s).stn = s.stn ∧ (State.rollDay d s).now = s.now ∧ (State.rollDay d s).lrc = s.lrc ∧
      (State.rollDay d s).deferred = s.deferred ∧ (State.rollDay d s).freeIdx = s.freeIdx ∧
      (State.rollDay d s).pending = s.pending := by
  unfold State.rollDay
  simp

@[simp] theorem State.rollIfDue_frame (s : State) :
    (State.rollIfDue s).stn = s.stn ∧ (State.rollIfDue s).now = s.now ∧ (State.rollIfDue s).lrc = s.lrc ∧
      (State.rollIfDue s).deferred = s.deferred ∧ (State.rollIfDue s).freeIdx = s.freeIdx ∧
      (State.rollIfDue s).pending = s.pending := by
  unfold State.rollIfDue; repeat' split
  all_goals simp

@[simp] theorem State.clockActs_frame (s : State) :
    (State.clockActs s).stn = s.stn ∧ (State.clockActs s).now = s.now ∧ (State.clockActs s).deferred = s.deferred ∧
      (State.clockActs s).pending = s.pending := by
  simp only [State.clockActs]
  repeat' split
  all_goals simp

@[simp] theorem State.setClock_frame (t : Time) (st : ClockState) (s : State) :
    (State.setClock t st s).stn = s.stn ∧ (State.setClock t st s).now = s.now ∧ (State.setClock t st s).tp = s.tp ∧
      (State.setClock t st s).is = s.is ∧ (State.setClock t st s).lu = s.lu ∧ (State.setClock t st s).bu = s.bu ∧
      (State.setClock t st s).ju = s.ju ∧ (State.setClock t st s).lrc = s.lrc ∧ (State.setClock t st s).fu = s.fu ∧
      (State.setClock t st s).gu = s.gu ∧ (State.setClock t st s).nlc = s.nlc ∧
      (State.setClock t st s).deferred = s.deferred ∧ (State.setClock t st s).out = s.out ∧
      (State.setClock t st s).freeIdx = s.freeIdx ∧ (State.setClock t st s).pending = s.pending := by
  simp only [State.setClock]
  repeat' split
  all_goals simp

@[simp] theorem State.adopt_frame (t : Time) (st : ClockState) (s : State) :
    (State.adopt t st s).stn = s.stn ∧ (State.adopt t st s).now = s.now ∧
      (State.adopt t st s).deferred = s.deferred ∧ (State.adopt t st s).pending = s.pending := by
  unfold State.adopt
  simp

@[simp] theorem State.setupAnswer_frame (dst : Station) (tag : Nat) (r : SetupResult) (s : State) :
    (State.setupAnswer dst tag r s).stn = s.stn ∧ (State.setupAnswer dst tag r s).now = s.now ∧
      (State.setupAnswer dst tag r s).is = s.is ∧ (State.setupAnswer dst tag r s).lu = s.lu ∧
      (State.setupAnswer dst tag r s).bu = s.bu ∧ (State.setupAnswer dst tag r s).ju = s.ju ∧
      (State.setupAnswer dst tag r s).lrc = s.lrc ∧ (State.setupAnswer dst tag r s).fu = s.fu ∧
      (State.setupAnswer dst tag r s).gu = s.gu ∧ (State.setupAnswer dst tag r s).nlc = s.nlc ∧
      (State.setupAnswer dst tag r s).sc = s.sc ∧ (State.setupAnswer dst tag r s).deferred = s.deferred ∧
      (State.setupAnswer dst tag r s).out = s.out ∧ (State.setupAnswer dst tag r s).freeIdx = s.freeIdx ∧
      (State.setupAnswer dst tag r s).pending = s.pending := by
  unfold State.setupAnswer
  simp

@[simp] theorem State.startLabels_frame (r : SetupRecord) (s : State) :
    (State.startLabels r s).stn = s.stn ∧ (State.startLabels r s).now = s.now ∧ (State.startLabels r s).tp = s.tp ∧
      (State.startLabels r s).is = s.is ∧ (State.startLabels r s).lu = s.lu ∧ (State.startLabels r s).bu = s.bu ∧
      (State.startLabels r s).ju = s.ju ∧ (State.startLabels r s).fu = s.fu ∧ (State.startLabels r s).gu = s.gu ∧
      (State.startLabels r s).nlc = s.nlc ∧ (State.startLabels r s).sc = s.sc ∧
      (State.startLabels r s).deferred = s.deferred ∧ (State.startLabels r s).out = s.out ∧
      (State.startLabels r s).freeIdx = s.freeIdx ∧ (State.startLabels r s).pending = s.pending := by
  unfold State.startLabels; repeat' split
  all_goals simp

@[simp] theorem State.takeSetup_frame (r : SetupRecord) (s : State) :
    (State.takeSetup r s).stn = s.stn ∧ (State.takeSetup r s).now = s.now ∧
      (State.takeSetup r s).deferred = s.deferred ∧ (State.takeSetup r s).pending = s.pending := by
  simp only [State.takeSetup]
  repeat' split
  all_goals simp

@[simp] theorem State.setup_frame (src : Station) (tag : Nat) (r : SetupRecord) (s : State) :
    (State.setup src tag r s).stn = s.stn ∧ (State.setup src tag r s).now = s.now ∧
      (State.setup src tag r s).deferred = s.deferred ∧ (State.setup src tag r s).pending = s.pending := by
  unfold State.setup; repeat' split
  all_goals simp

@[simp] theorem State.endTills_frame (s : State) :
    (State.endTills s).stn = s.stn ∧ (State.endTills s).now = s.now ∧ (State.endTills s).tp = s.tp ∧
      (State.endTills s).is = s.is ∧ (State.endTills s).lu = s.lu ∧ (State.endTills s).ju = s.ju ∧
      (State.endTills s).lrc = s.lrc ∧ (State.endTills s).fu = s.fu ∧ (State.endTills s).gu = s.gu ∧
      (State.endTills s).nlc = s.nlc ∧ (State.endTills s).sc = s.sc ∧ (State.endTills s).freeIdx = s.freeIdx ∧
      (State.endTills s).pending = s.pending := by
  simp only [State.endTills]; and_intros
  all_goals simp only [State.onBu_stn, State.onBu_now, State.onBu_tp, State.onBu_is, State.onBu_lu, State.onBu_ju,
    State.onBu_lrc, State.onBu_fu, State.onBu_gu, State.onBu_nlc, State.onBu_sc, State.onBu_freeIdx, State.onBu_pending]
  all_goals exact foldl_keeps _ _ (by intro s a; split <;> simp) _ _

@[simp] theorem State.takeClear_frame (s : State) :
    (State.takeClear s).stn = s.stn ∧ (State.takeClear s).now = s.now ∧ (State.takeClear s).is = s.is ∧
      (State.takeClear s).freeIdx = s.freeIdx ∧ (State.takeClear s).pending = s.pending := by
  unfold State.takeClear
  simp

@[simp] theorem State.clearSetup_frame (src : Station) (tag : Nat) (s : State) :
    (State.clearSetup src tag s).stn = s.stn ∧ (State.clearSetup src tag s).now = s.now ∧
      (State.clearSetup src tag s).is = s.is ∧ (State.clearSetup src tag s).freeIdx = s.freeIdx ∧
      (State.clearSetup src tag s).pending = s.pending := by
  unfold State.clearSetup; repeat' split
  all_goals simp

@[simp] theorem State.setPeer_frame (n : Station) (e : PeerEntry) (s : State) :
    (State.setPeer n e s).stn = s.stn ∧ (State.setPeer n e s).now = s.now ∧ (State.setPeer n e s).is = s.is ∧
      (State.setPeer n e s).lu = s.lu ∧ (State.setPeer n e s).bu = s.bu ∧ (State.setPeer n e s).ju = s.ju ∧
      (State.setPeer n e s).lrc = s.lrc ∧ (State.setPeer n e s).fu = s.fu ∧ (State.setPeer n e s).gu = s.gu ∧
      (State.setPeer n e s).nlc = s.nlc ∧ (State.setPeer n e s).sc = s.sc ∧
      (State.setPeer n e s).deferred = s.deferred ∧ (State.setPeer n e s).out = s.out ∧
      (State.setPeer n e s).freeIdx = s.freeIdx ∧ (State.setPeer n e s).pending = s.pending := by
  unfold State.setPeer
  simp

@[simp] theorem State.signalLookup_frame (n : Station) (old : PeerEntry) (s : State) :
    (State.signalLookup n old s).stn = s.stn ∧ (State.signalLookup n old s).now = s.now ∧
      (State.signalLookup n old s).tp = s.tp ∧ (State.signalLookup n old s).is = s.is ∧
      (State.signalLookup n old s).bu = s.bu ∧ (State.signalLookup n old s).ju = s.ju ∧
      (State.signalLookup n old s).lrc = s.lrc ∧ (State.signalLookup n old s).fu = s.fu ∧
      (State.signalLookup n old s).gu = s.gu ∧ (State.signalLookup n old s).nlc = s.nlc ∧
      (State.signalLookup n old s).sc = s.sc ∧ (State.signalLookup n old s).deferred = s.deferred ∧
      (State.signalLookup n old s).out = s.out ∧ (State.signalLookup n old s).freeIdx = s.freeIdx ∧
      (State.signalLookup n old s).pending = s.pending := by
  unfold State.signalLookup; repeat' split
  all_goals simp

@[simp] theorem State.signalAbsent_frame (n : Station) (old : PeerEntry) (s : State) :
    (State.signalAbsent n old s).stn = s.stn ∧ (State.signalAbsent n old s).now = s.now ∧
      (State.signalAbsent n old s).tp = s.tp ∧ (State.signalAbsent n old s).is = s.is ∧
      (State.signalAbsent n old s).lu = s.lu ∧ (State.signalAbsent n old s).lrc = s.lrc ∧
      (State.signalAbsent n old s).nlc = s.nlc ∧ (State.signalAbsent n old s).sc = s.sc ∧
      (State.signalAbsent n old s).deferred = s.deferred ∧ (State.signalAbsent n old s).freeIdx = s.freeIdx ∧
      (State.signalAbsent n old s).pending = s.pending := by
  unfold State.signalAbsent; repeat' split
  all_goals simp

@[simp] theorem State.peerChanged_frame (n : Station) (old : PeerEntry) (s : State) :
    (State.peerChanged n old s).stn = s.stn ∧ (State.peerChanged n old s).now = s.now ∧
      (State.peerChanged n old s).is = s.is ∧ (State.peerChanged n old s).lrc = s.lrc ∧
      (State.peerChanged n old s).sc = s.sc ∧ (State.peerChanged n old s).deferred = s.deferred ∧
      (State.peerChanged n old s).freeIdx = s.freeIdx ∧ (State.peerChanged n old s).pending = s.pending := by
  simp only [State.peerChanged]
  repeat' split
  all_goals simp

@[simp] theorem State.formAnnounce_frame (s : State) :
    (State.formAnnounce s).stn = s.stn ∧ (State.formAnnounce s).now = s.now ∧ (State.formAnnounce s).is = s.is ∧
      (State.formAnnounce s).lrc = s.lrc ∧ (State.formAnnounce s).sc = s.sc ∧
      (State.formAnnounce s).deferred = s.deferred ∧ (State.formAnnounce s).freeIdx = s.freeIdx ∧
      (State.formAnnounce s).pending = s.pending := by
  unfold State.formAnnounce
  simp

@[simp] theorem State.takeAnnounce_frame (src : Station) (a : AnnounceInfo) (s : State) :
    (State.takeAnnounce src a s).stn = s.stn ∧ (State.takeAnnounce src a s).now = s.now ∧
      (State.takeAnnounce src a s).deferred = s.deferred ∧ (State.takeAnnounce src a s).pending = s.pending := by
  simp only [State.takeAnnounce]
  repeat' split
  all_goals simp

@[simp] theorem State.takeNotice_frame (src : Station) (gen : Nat) (s : State) :
    (State.takeNotice src gen s).stn = s.stn ∧ (State.takeNotice src gen s).now = s.now ∧
      (State.takeNotice src gen s).is = s.is ∧ (State.takeNotice src gen s).lrc = s.lrc ∧
      (State.takeNotice src gen s).sc = s.sc ∧ (State.takeNotice src gen s).deferred = s.deferred ∧
      (State.takeNotice src gen s).freeIdx = s.freeIdx ∧ (State.takeNotice src gen s).pending = s.pending := by
  simp only [State.takeNotice]
  repeat' split
  all_goals simp

@[simp] theorem State.peerStale_frame (n : Station) (s : State) :
    (State.peerStale n s).stn = s.stn ∧ (State.peerStale n s).now = s.now ∧ (State.peerStale n s).is = s.is ∧
      (State.peerStale n s).lrc = s.lrc ∧ (State.peerStale n s).sc = s.sc ∧
      (State.peerStale n s).deferred = s.deferred ∧ (State.peerStale n s).freeIdx = s.freeIdx ∧
      (State.peerStale n s).pending = s.pending := by
  unfold State.peerStale; repeat' split
  all_goals simp

@[simp] theorem State.peerAbsent_frame (n : Station) (s : State) :
    (State.peerAbsent n s).stn = s.stn ∧ (State.peerAbsent n s).now = s.now ∧ (State.peerAbsent n s).is = s.is ∧
      (State.peerAbsent n s).lrc = s.lrc ∧ (State.peerAbsent n s).sc = s.sc ∧
      (State.peerAbsent n s).deferred = s.deferred ∧ (State.peerAbsent n s).freeIdx = s.freeIdx ∧
      (State.peerAbsent n s).pending = s.pending := by
  unfold State.peerAbsent; repeat' split
  all_goals simp

@[simp] theorem State.withdrawB_frame (f : Frame) (s : State) :
    (State.withdrawB f s).stn = s.stn ∧ (State.withdrawB f s).now = s.now ∧ (State.withdrawB f s).tp = s.tp ∧
      (State.withdrawB f s).is = s.is ∧ (State.withdrawB f s).lu = s.lu ∧ (State.withdrawB f s).ju = s.ju ∧
      (State.withdrawB f s).lrc = s.lrc ∧ (State.withdrawB f s).fu = s.fu ∧ (State.withdrawB f s).nlc = s.nlc ∧
      (State.withdrawB f s).sc = s.sc ∧ (State.withdrawB f s).deferred = s.deferred ∧
      (State.withdrawB f s).out = s.out ∧ (State.withdrawB f s).freeIdx = s.freeIdx ∧
      (State.withdrawB f s).pending = s.pending := by
  unfold State.withdrawB; repeat' split
  all_goals simp

@[simp] theorem State.withdrawAll_frame (s : State) :
    (State.withdrawAll s).stn = s.stn ∧ (State.withdrawAll s).now = s.now ∧ (State.withdrawAll s).is = s.is ∧
      (State.withdrawAll s).lu = s.lu ∧ (State.withdrawAll s).ju = s.ju ∧ (State.withdrawAll s).lrc = s.lrc ∧
      (State.withdrawAll s).deferred = s.deferred ∧ (State.withdrawAll s).out = s.out ∧
      (State.withdrawAll s).freeIdx = s.freeIdx ∧ (State.withdrawAll s).pending = s.pending := by
  simp only [State.withdrawAll]; and_intros
  all_goals simp
  all_goals exact (foldl_keeps _ _ (by intro s a; simp) _ _).trans (by simp)

@[simp] theorem State.enterDuplicate_frame (s : State) :
    (State.enterDuplicate s).stn = s.stn ∧ (State.enterDuplicate s).now = s.now ∧ (State.enterDuplicate s).is = s.is ∧
      (State.enterDuplicate s).lrc = s.lrc ∧ (State.enterDuplicate s).freeIdx = s.freeIdx ∧
      (State.enterDuplicate s).pending = s.pending := by
  simp only [State.enterDuplicate]
  repeat' split
  all_goals simp

@[simp] theorem State.ownNumber_frame (s : State) :
    (State.ownNumber s).stn = s.stn ∧ (State.ownNumber s).now = s.now ∧ (State.ownNumber s).is = s.is ∧
      (State.ownNumber s).lrc = s.lrc ∧ (State.ownNumber s).freeIdx = s.freeIdx ∧
      (State.ownNumber s).pending = s.pending := by
  unfold State.ownNumber; repeat' split
  all_goals simp

@[simp] theorem State.transmissionSent_frame (s : State) :
    (State.transmissionSent s).stn = s.stn ∧ (State.transmissionSent s).now = s.now ∧
      (State.transmissionSent s).is = s.is ∧ (State.transmissionSent s).lu = s.lu ∧
      (State.transmissionSent s).bu = s.bu ∧ (State.transmissionSent s).ju = s.ju ∧
      (State.transmissionSent s).lrc = s.lrc ∧ (State.transmissionSent s).fu = s.fu ∧
      (State.transmissionSent s).gu = s.gu ∧ (State.transmissionSent s).nlc = s.nlc ∧
      (State.transmissionSent s).sc = s.sc ∧ (State.transmissionSent s).deferred = s.deferred ∧
      (State.transmissionSent s).freeIdx = s.freeIdx ∧ (State.transmissionSent s).pending = s.pending := by
  unfold State.transmissionSent; repeat' split
  all_goals simp

@[simp] theorem State.garbled_frame (s : State) :
    (State.garbled s).stn = s.stn ∧ (State.garbled s).now = s.now ∧ (State.garbled s).is = s.is ∧
      (State.garbled s).lrc = s.lrc ∧ (State.garbled s).freeIdx = s.freeIdx ∧
      (State.garbled s).pending = s.pending := by
  simp only [State.garbled]
  repeat' split
  all_goals simp

@[simp] theorem State.handOwner_frame (s : State) (o : COwner) :
    (State.handOwner s o).stn = s.stn ∧ (State.handOwner s o).now = s.now ∧ (State.handOwner s o).is = s.is ∧
      (State.handOwner s o).lu = s.lu ∧ (State.handOwner s o).bu = s.bu ∧ (State.handOwner s o).ju = s.ju ∧
      (State.handOwner s o).lrc = s.lrc ∧ (State.handOwner s o).gu = s.gu ∧ (State.handOwner s o).deferred = s.deferred ∧
      (State.handOwner s o).out = s.out ∧ (State.handOwner s o).freeIdx = s.freeIdx ∧
      (State.handOwner s o).pending = s.pending := by
  cases o <;> simp [State.handOwner]

@[simp] theorem State.takeTurn_frame (f : Frame) (o : COwner) (s : State) :
    (State.takeTurn f o s).stn = s.stn ∧ (State.takeTurn f o s).now = s.now ∧ (State.takeTurn f o s).is = s.is ∧
      (State.takeTurn f o s).lu = s.lu ∧ (State.takeTurn f o s).bu = s.bu ∧ (State.takeTurn f o s).ju = s.ju ∧
      (State.takeTurn f o s).lrc = s.lrc ∧ (State.takeTurn f o s).gu = s.gu ∧
      (State.takeTurn f o s).deferred = s.deferred ∧ (State.takeTurn f o s).out = s.out ∧
      (State.takeTurn f o s).freeIdx = s.freeIdx ∧ (State.takeTurn f o s).pending = s.pending := by
  simp only [State.takeTurn]
  split <;> (try split) <;> simp

@[simp] theorem State.keepOnRecord_frame (o : COwner) (s : State) :
    (State.keepOnRecord o s).stn = s.stn ∧ (State.keepOnRecord o s).now = s.now ∧ (State.keepOnRecord o s).is = s.is ∧
      (State.keepOnRecord o s).lu = s.lu ∧ (State.keepOnRecord o s).bu = s.bu ∧ (State.keepOnRecord o s).ju = s.ju ∧
      (State.keepOnRecord o s).lrc = s.lrc ∧ (State.keepOnRecord o s).fu = s.fu ∧ (State.keepOnRecord o s).gu = s.gu ∧
      (State.keepOnRecord o s).nlc = s.nlc ∧ (State.keepOnRecord o s).sc = s.sc ∧
      (State.keepOnRecord o s).deferred = s.deferred ∧ (State.keepOnRecord o s).out = s.out ∧
      (State.keepOnRecord o s).freeIdx = s.freeIdx ∧ (State.keepOnRecord o s).pending = s.pending := by
  unfold State.keepOnRecord; repeat' split
  all_goals simp

@[simp] theorem State.offerTo_frame (f : Frame) (s : State) :
    (State.offerTo f s).stn = s.stn ∧ (State.offerTo f s).now = s.now ∧ (State.offerTo f s).is = s.is ∧
      (State.offerTo f s).lu = s.lu ∧ (State.offerTo f s).bu = s.bu ∧ (State.offerTo f s).ju = s.ju ∧
      (State.offerTo f s).lrc = s.lrc ∧ (State.offerTo f s).gu = s.gu ∧ (State.offerTo f s).deferred = s.deferred ∧
      (State.offerTo f s).out = s.out ∧ (State.offerTo f s).freeIdx = s.freeIdx ∧
      (State.offerTo f s).pending = s.pending := by
  unfold State.offerTo
  split <;> (try split) <;> simp

@[simp] theorem State.offerC_frame (k : Nat) (s : State) :
    (State.offerC k s).stn = s.stn ∧ (State.offerC k s).now = s.now ∧ (State.offerC k s).is = s.is ∧
      (State.offerC k s).lu = s.lu ∧ (State.offerC k s).bu = s.bu ∧ (State.offerC k s).ju = s.ju ∧
      (State.offerC k s).lrc = s.lrc ∧ (State.offerC k s).gu = s.gu ∧ (State.offerC k s).deferred = s.deferred ∧
      (State.offerC k s).out = s.out ∧ (State.offerC k s).freeIdx = s.freeIdx ∧
      (State.offerC k s).pending = s.pending := by
  induction k generalizing s with
  | zero => simp [State.offerC]
  | succ m ih =>
    simp only [State.offerC]
    split
    · simp
    · split <;> simp [ih]

@[simp] theorem State.offerRoom_frame (s : State) :
    (State.offerRoom s).stn = s.stn ∧ (State.offerRoom s).now = s.now ∧ (State.offerRoom s).is = s.is ∧
      (State.offerRoom s).lu = s.lu ∧ (State.offerRoom s).bu = s.bu ∧ (State.offerRoom s).lrc = s.lrc ∧
      (State.offerRoom s).deferred = s.deferred ∧ (State.offerRoom s).freeIdx = s.freeIdx ∧
      (State.offerRoom s).pending = s.pending := by
  unfold State.offerRoom
  dsimp only
  split <;> simp

@[simp] theorem State.enterActive_frame (s : State) :
    (State.enterActive s).stn = s.stn ∧ (State.enterActive s).now = s.now ∧ (State.enterActive s).is = s.is ∧
      (State.enterActive s).lrc = s.lrc ∧ (State.enterActive s).deferred = s.deferred ∧
      (State.enterActive s).freeIdx = s.freeIdx ∧ (State.enterActive s).pending = s.pending := by
  unfold State.enterActive
  simp

@[simp] theorem State.roundOver_frame (s : State) :
    (State.roundOver s).stn = s.stn ∧ (State.roundOver s).now = s.now ∧ (State.roundOver s).is = s.is ∧
      (State.roundOver s).lu = s.lu ∧ (State.roundOver s).bu = s.bu ∧ (State.roundOver s).ju = s.ju ∧
      (State.roundOver s).lrc = s.lrc ∧ (State.roundOver s).fu = s.fu ∧ (State.roundOver s).gu = s.gu ∧
      (State.roundOver s).nlc = s.nlc ∧ (State.roundOver s).sc = s.sc ∧ (State.roundOver s).deferred = s.deferred ∧
      (State.roundOver s).out = s.out ∧ (State.roundOver s).freeIdx = s.freeIdx ∧
      (State.roundOver s).pending = s.pending := by
  unfold State.roundOver
  simp

@[simp] theorem State.buildLabels_frame (s : State) :
    (State.buildLabels s).stn = s.stn ∧ (State.buildLabels s).now = s.now ∧ (State.buildLabels s).tp = s.tp ∧
      (State.buildLabels s).is = s.is ∧ (State.buildLabels s).lu = s.lu ∧ (State.buildLabels s).bu = s.bu ∧
      (State.buildLabels s).ju = s.ju ∧ (State.buildLabels s).fu = s.fu ∧ (State.buildLabels s).gu = s.gu ∧
      (State.buildLabels s).nlc = s.nlc ∧ (State.buildLabels s).sc = s.sc ∧
      (State.buildLabels s).deferred = s.deferred ∧ (State.buildLabels s).out = s.out ∧
      (State.buildLabels s).freeIdx = s.freeIdx ∧ (State.buildLabels s).pending = s.pending := by
  unfold State.buildLabels; repeat' split
  all_goals simp

@[simp] theorem State.labelWake_frame (label : Nat) (s : State) :
    (State.labelWake label s).stn = s.stn ∧ (State.labelWake label s).now = s.now ∧
      (State.labelWake label s).tp = s.tp ∧ (State.labelWake label s).is = s.is ∧
      (State.labelWake label s).lu = s.lu ∧ (State.labelWake label s).bu = s.bu ∧
      (State.labelWake label s).ju = s.ju ∧ (State.labelWake label s).fu = s.fu ∧
      (State.labelWake label s).gu = s.gu ∧ (State.labelWake label s).nlc = s.nlc ∧
      (State.labelWake label s).sc = s.sc ∧ (State.labelWake label s).deferred = s.deferred ∧
      (State.labelWake label s).freeIdx = s.freeIdx ∧ (State.labelWake label s).pending = s.pending := by
  simp only [State.labelWake]
  repeat' split
  all_goals simp

@[simp] theorem State.takeOfficeMsg_frame (m : NightMsg) (s : State) :
    (State.takeOfficeMsg m s).stn = s.stn ∧ (State.takeOfficeMsg m s).now = s.now ∧
      (State.takeOfficeMsg m s).pending = s.pending := by
  unfold State.takeOfficeMsg; repeat' split
  all_goals simp

@[simp] theorem State.takeUplink_frame (r : SetupRecord) (p : Packet) (s : State) :
    (State.takeUplink r p s).stn = s.stn ∧ (State.takeUplink r p s).now = s.now ∧
      (State.takeUplink r p s).pending = s.pending := by
  unfold State.takeUplink; repeat' split
  all_goals simp

@[simp] theorem State.keyItem_frame (line : TillNo) (tag dept price : Nat) (quantity : Int) (claimed : Option Nat) (s : State) :
    (State.keyItem line tag dept price quantity claimed s).stn = s.stn ∧
      (State.keyItem line tag dept price quantity claimed s).now = s.now ∧
      (State.keyItem line tag dept price quantity claimed s).tp = s.tp ∧
      (State.keyItem line tag dept price quantity claimed s).is = s.is ∧
      (State.keyItem line tag dept price quantity claimed s).lu = s.lu ∧
      (State.keyItem line tag dept price quantity claimed s).lrc = s.lrc ∧
      (State.keyItem line tag dept price quantity claimed s).fu = s.fu ∧
      (State.keyItem line tag dept price quantity claimed s).gu = s.gu ∧
      (State.keyItem line tag dept price quantity claimed s).nlc = s.nlc ∧
      (State.keyItem line tag dept price quantity claimed s).sc = s.sc ∧
      (State.keyItem line tag dept price quantity claimed s).freeIdx = s.freeIdx ∧
      (State.keyItem line tag dept price quantity claimed s).pending = s.pending := by
  unfold State.keyItem; repeat' split
  all_goals simp

@[simp] theorem State.voidOf_frame (line : TillNo) (tag : Nat) (l : Line) (s : State) :
    (State.voidOf line tag l s).stn = s.stn ∧ (State.voidOf line tag l s).now = s.now ∧
      (State.voidOf line tag l s).tp = s.tp ∧ (State.voidOf line tag l s).is = s.is ∧
      (State.voidOf line tag l s).lu = s.lu ∧ (State.voidOf line tag l s).ju = s.ju ∧
      (State.voidOf line tag l s).lrc = s.lrc ∧ (State.voidOf line tag l s).fu = s.fu ∧
      (State.voidOf line tag l s).gu = s.gu ∧ (State.voidOf line tag l s).nlc = s.nlc ∧
      (State.voidOf line tag l s).sc = s.sc ∧ (State.voidOf line tag l s).deferred = s.deferred ∧
      (State.voidOf line tag l s).freeIdx = s.freeIdx ∧ (State.voidOf line tag l s).pending = s.pending := by
  unfold State.voidOf
  simp

@[simp] theorem State.overrideOf_frame (line : TillNo) (tag price level : Nat) (l : Line) (s : State) :
    (State.overrideOf line tag price level l s).stn = s.stn ∧
      (State.overrideOf line tag price level l s).now = s.now ∧
      (State.overrideOf line tag price level l s).tp = s.tp ∧ (State.overrideOf line tag price level l s).is = s.is ∧
      (State.overrideOf line tag price level l s).lu = s.lu ∧
      (State.overrideOf line tag price level l s).lrc = s.lrc ∧
      (State.overrideOf line tag price level l s).fu = s.fu ∧ (State.overrideOf line tag price level l s).gu = s.gu ∧
      (State.overrideOf line tag price level l s).nlc = s.nlc ∧
      (State.overrideOf line tag price level l s).sc = s.sc ∧
      (State.overrideOf line tag price level l s).deferred = s.deferred ∧
      (State.overrideOf line tag price level l s).freeIdx = s.freeIdx ∧
      (State.overrideOf line tag price level l s).pending = s.pending := by
  by_cases h : s.ju.grants 1 <;> simp [State.overrideOf, State.reserveFor, h]

end Sys2Proof.Machine
end

