-- ==== Sys2Proof/Laws/Air.lean ====
section
/-!
SUPPORT. What an OFFICE packet, a carrier judgement and a clock adoption do to the outputs and to the guest air port:
they add to them and take nothing away, and with guest service off they leave the air port alone.
-/

namespace Sys2Proof.Machine

/-- Outputs and air messages are added alone; with guest service off no air message is; the setup page stays. -/
structure State.Adds (s t : State) : Prop where
  out : ∃ new, t.out = s.out ++ new
  sending : s.gu.airSending ≠ none → t.gu.airSending = s.gu.airSending
  queue : ∃ new, t.gu.airQueue = s.gu.airQueue ++ new
  off : s.guestOn = false → t.gu.airSending = s.gu.airSending ∧ t.gu.airQueue = s.gu.airQueue
  page : t.sc.page = s.sc.page

theorem State.Adds.of_eq {s t : State} (ho : t.out = s.out) (hs : t.gu.airSending = s.gu.airSending)
    (hq : t.gu.airQueue = s.gu.airQueue) (hp : t.sc.page = s.sc.page) : s.Adds t :=
  ⟨⟨[], by simp [ho]⟩, fun _ => hs, ⟨[], by simp [hq]⟩, fun _ => ⟨hs, hq⟩, hp⟩

theorem State.Adds.refl (s : State) : s.Adds s := .of_eq rfl rfl rfl rfl

theorem State.guestOn_of_page {s t : State} (h : t.sc.page = s.sc.page) : t.guestOn = s.guestOn := by
  unfold State.guestOn; rw [h]

theorem State.Adds.trans {s t u : State} (h : s.Adds t) (g : t.Adds u) : s.Adds u := by
  obtain ⟨a, ha⟩ := h.out
  obtain ⟨b, hb⟩ := g.out
  obtain ⟨c, hc⟩ := h.queue
  obtain ⟨d, hd⟩ := g.queue
  refine ⟨⟨a ++ b, by rw [hb, ha, List.append_assoc]⟩, fun n => ?_, ⟨c ++ d, by rw [hd, hc, List.append_assoc]⟩,
    fun n => ?_, g.page.trans h.page⟩
  · rw [g.sending (by rw [h.sending n]; exact n), h.sending n]
  · have e := h.off n
    have f := g.off (by rw [guestOn_of_page h.page]; exact n)
    exact ⟨f.1.trans e.1, f.2.trans e.2⟩

/-- An output is added. -/
theorem State.emit_adds (o : Output) (s : State) : s.Adds (s.emit o) :=
  ⟨⟨[o], rfl⟩, fun _ => rfl, ⟨[], by simp [State.emit]⟩, fun _ => ⟨rfl, rfl⟩, rfl⟩

/-- An air message is added, with guest service on. -/
theorem State.air_adds (m : AirMsg) (s : State) (h : s.guestOn = true) : s.Adds (s.air m) := by
  have off : ∀ {P : Prop}, s.guestOn = false → P := fun g => by rw [h] at g; cases g
  unfold State.air
  split
  next hn =>
    have hn : s.gu.airSending = none := by simpa using hn
    exact ⟨⟨[.air m], rfl⟩, fun g => absurd hn g, ⟨[], by simp [State.emit, State.onGu]⟩, off, rfl⟩
  next =>
    split
    · exact .of_eq rfl rfl rfl rfl
    · exact ⟨⟨[], by simp [State.onGu]⟩, fun _ => rfl, ⟨[m], rfl⟩, off, rfl⟩

theorem State.deliverGuest_adds (p : Packet) (s : State) : s.Adds (s.deliverGuest p) := by
  unfold State.deliverGuest
  split
  · exact .of_eq rfl rfl rfl rfl
  next h =>
    repeat' split
    all_goals first
      | exact .of_eq rfl rfl rfl rfl
      | exact State.Adds.trans (t := State.onClient _ _ s) (.of_eq rfl rfl rfl rfl) (State.air_adds _ _ (by simpa [State.guestOn] using h))

theorem State.kickUplink_adds (s : State) : s.Adds s.kickUplink := by
  unfold State.kickUplink
  dsimp only
  split
  · split
    · exact State.Adds.trans (t := s.onFu _) (.of_eq rfl rfl rfl rfl) (State.emit_adds _ _)
    · exact .refl s
  · exact .refl s

theorem State.dropPacket_adds (cls : OriginClass) (s : State) : s.Adds (s.dropPacket cls) :=
  .of_eq (by simp) (by simp) (by simp) (by simp)

theorem State.enqueueUplink_adds (cls : OriginClass) (p : Packet) (s : State) : s.Adds (s.enqueueUplink cls p) := by
  unfold State.enqueueUplink
  repeat' split
  all_goals first
    | exact State.dropPacket_adds _ s
    | exact State.Adds.trans (t := s.onFu _) (.of_eq rfl rfl rfl rfl) (State.kickUplink_adds _)

theorem State.toTill_adds (cls : OriginClass) (p : Packet) (s : State) : s.Adds (s.toTill cls p) := by
  unfold State.toTill
  repeat' split
  all_goals first | exact State.dropPacket_adds _ s | exact State.emit_adds _ s

theorem State.toCarrier_adds (from_ : Entry) (cls : OriginClass) (p : Packet) (s : State) :
    s.Adds (s.toCarrier from_ cls p) := by
  unfold State.toCarrier
  repeat' split
  all_goals first
    | exact State.enqueueUplink_adds _ _ s
    | exact .of_eq (by simp) (by simp) (by simp) (by simp)

/-- An OFFICE packet of the station itself is routed. -/
theorem State.route_adds (p : Packet) (s : State) : s.Adds (s.route .office .office p) := by
  unfold State.route
  dsimp only
  repeat' split
  all_goals first
    | exact State.dropPacket_adds _ s
    | exact State.toTill_adds _ _ s
    | exact State.deliverGuest_adds _ s
    | exact State.toCarrier_adds _ _ _ s
    | exact .of_eq (by simp) (by simp) (by simp) (by simp)

theorem State.toOffice_adds (m : NightMsg) (s : State) : s.Adds (s.toOffice m) := by
  unfold State.toOffice
  split
  · exact .refl s
  · exact State.route_adds _ s

theorem State.forwardOffice_adds (m : NightMsg) (s : State) : s.Adds (s.forwardOffice m) := by
  unfold State.forwardOffice
  split
  · exact State.toOffice_adds m s
  · exact .of_eq rfl rfl rfl rfl

theorem State.sendBlock_adds (m : NightMsg) (s : State) : s.Adds (s.sendBlock m) := by
  unfold State.sendBlock
  dsimp only
  refine State.Adds.trans (t := s.onNlc fun n => { n with msgNo := next256 n.msgNo }) (.of_eq rfl rfl rfl rfl) ?_
  repeat' split
  all_goals first | exact State.toOffice_adds m _ | exact .of_eq (by simp) (by simp) (by simp) (by simp)

theorem State.activityStep_adds (s : State) : s.Adds s.activityStep := by
  unfold State.activityStep
  dsimp only
  repeat' split
  all_goals first
    | exact .of_eq rfl rfl rfl rfl
    | exact State.Adds.trans (t := s.onNlc _) (.of_eq rfl rfl rfl rfl) (State.sendBlock_adds _ _)

theorem State.opportunityFor_adds (k : Nat) : ∀ s : State, s.Adds (s.opportunityFor k) := by
  induction k with
  | zero => exact State.Adds.refl
  | succ k ih =>
    intro s
    unfold State.opportunityFor
    split
    · exact .refl s
    · split
      · refine State.Adds.trans (State.Adds.trans ?_ (State.sendBlock_adds _ _)) (ih _)
        exact .of_eq rfl rfl rfl rfl
      · split
        · exact (State.activityStep_adds s).trans (ih _)
        · exact .refl s

theorem State.opportunity_adds (s : State) : s.Adds s.opportunity := State.opportunityFor_adds 16 s

theorem State.testUpload_adds (s : State) : s.Adds s.testUpload := by
  unfold State.testUpload
  repeat' split
  · exact State.Adds.trans (t := s.onNlc _) (.of_eq rfl rfl rfl rfl) (State.opportunity_adds _)
  · exact .refl s
  · exact .of_eq (by simp) (by simp) (by simp) (by simp)

theorem State.testCall_adds (s : State) : s.Adds s.testCall := by
  unfold State.testCall
  repeat' split
  · exact .refl s
  · exact (State.toOffice_adds _ s).trans (.of_eq rfl rfl rfl rfl)
  · exact .refl s

theorem State.forwardAll_adds (l : List SendEntry) :
    ∀ s : State, s.Adds (l.foldl (fun s e => s.forwardOffice e.msg) s) := by
  induction l with
  | nil => exact State.Adds.refl
  | cons e l ih => exact fun s => (State.forwardOffice_adds e.msg s).trans (ih _)

theorem State.readdress_adds (s : State) : s.Adds s.readdress := by
  unfold State.readdress
  dsimp only
  repeat' split
  · exact State.Adds.trans (t := s.onNlc _) (.of_eq rfl rfl rfl rfl) (State.forwardAll_adds _ _)
  · exact .of_eq rfl rfl rfl rfl
  · exact .of_eq rfl rfl rfl rfl

/-- The carrier is judged again (R187). -/
theorem State.rejudge_adds (s : State) : s.Adds s.rejudge := by
  unfold State.rejudge
  dsimp only
  refine State.Adds.trans (State.Adds.trans ?_ (State.testUpload_adds _)) (State.testCall_adds _)
  split
  · exact .refl s
  · have flush : ∀ u : State, u.Adds u.flushNight := fun u => .of_eq (by simp) (by simp) (by simp) (by simp)
    refine State.Adds.trans ?_ ((State.readdress_adds _).trans (flush _))
    split <;> exact .of_eq (by simp) (by simp) (by simp) (by simp)

theorem State.testWindow_adds (s : State) : s.Adds s.testWindow := by
  unfold State.testWindow
  repeat' split
  · exact State.Adds.trans (t := s.onNlc _) (.of_eq rfl rfl rfl rfl) (State.testCall_adds _)
  · unfold State.leaveWindow
    dsimp only
    repeat' split
    · exact .of_eq (by simp) (by simp) (by simp) (by simp)
    · have drained : ∀ u : State, u.Adds u.testDrained := fun u => .of_eq (by simp) (by simp) (by simp) (by simp)
      refine State.Adds.trans (State.Adds.trans ?_ (State.toOffice_adds _ _)) (drained _)
      exact .of_eq rfl rfl rfl rfl
    all_goals exact .of_eq (by simp) (by simp) (by simp) (by simp)
  · exact .refl s

theorem State.switchIfDue_adds (s : State) : s.Adds s.switchIfDue :=
  .of_eq (by simp) (by simp) (by simp) (by simp)

theorem State.rollIfDue_adds (s : State) : s.Adds s.rollIfDue := by
  unfold State.rollIfDue
  split
  · unfold State.rollDay
    dsimp only
    exact State.Adds.trans (.of_eq (by simp) (by simp) (by simp) (by simp)) (State.opportunity_adds _)
  · exact .refl s

/-- What has become due by a new clock value is performed (R205). -/
theorem State.clockActs_adds (s : State) : s.Adds s.clockActs := by
  unfold State.clockActs
  dsimp only
  refine (State.testWindow_adds s).trans ?_
  repeat' split
  · exact ((State.rollIfDue_adds _).trans (State.switchIfDue_adds _)).trans (.of_eq rfl rfl rfl rfl)
  · exact ((State.switchIfDue_adds _).trans (State.rollIfDue_adds _)).trans (.of_eq rfl rfl rfl rfl)
  · exact (State.switchIfDue_adds _).trans (State.rollIfDue_adds _)

end Sys2Proof.Machine
end

