-- ==== Sys2Proof/WellFormed.lean ====
section
/-!
DEFINITION. Well-formed commands: each operand within the range its field has on the line that carries it. A field
that a rule of the manual itself checks (a price, a code, a level, a setup field, a packet's length) is not checked
here: an out-of-range value there is a command with a meaning.
-/

namespace Sys2Proof

open Sys2Proof.Machine

/-- A tag has 8 bits (Table 2-1, Table 2-13). -/
def tagOk (t : Nat) : Bool := decide (t ≤ 255)

/-- A generation has 32 bits. -/
def genOk (g : Nat) : Bool := decide (g ≤ u32Max)

/-- A day number of 32 bits and a second of a day (section 12.2). -/
def Machine.Time.ok (t : Machine.Time) : Bool := decide (t.day ≤ u32Max) && decide (t.sec ≤ 86399)

/-- A zone, a journal count and a label count in their ranges; a clock value and a subnet in theirs (Table 2-8). -/
def Machine.AnnounceInfo.ok (a : AnnounceInfo) : Bool :=
  decide (a.zone ≤ 63) && genOk a.gen && decide (a.journalFree ≤ 65536) && decide (a.unreachable ≤ 4096) &&
    a.clock.all Time.ok && a.subnet.all fun n => decide (n.len ≤ 32)

/-- Part k of n, at most `most` (R115, R164, R194). -/
def partOk (k n most : Nat) : Bool := decide (1 ≤ k) && decide (k ≤ n) && decide (n ≤ most)

/-- A PARK DATA part: its head in part 1 alone (Table 6-2). -/
def Machine.ParkPart.ok (p : ParkPart) : Bool :=
  partOk p.k p.n 4 && decide (p.head.isSome = decide (p.k = 1)) && p.head.all fun h => h.parked.all Time.ok

/-- A RELAY part holds at most 500 bytes (R164). -/
def Machine.RelayPart.ok (p : RelayPart) : Bool := partOk p.k p.n 3 && decide (p.bytes ≤ 500)

/-- A label index (R124). -/
def labelOk (i : Nat) : Bool := decide (i ≤ 4095)

/-- A block of 1 to 32 records (R150); an activity block number has 8 bits (R199). -/
def Machine.BlockRef.ok : BlockRef → Bool
  | .journal _ n => decide (1 ≤ n) && decide (n ≤ 32)
  | .activity n => decide (n ≤ 255)

/-- An index of 16 bits (R206). -/
def indexOk (i : Nat) : Bool := decide (i ≤ 65535)

/-- An order carries 1 to 16 entries (R10, R11). -/
def orderOk (n : Nat) : Bool := decide (1 ≤ n) && decide (n ≤ 16)

/-- The tag a command carries, if it carries one. -/
def Instr.tag : Instr → Option Nat
  | .setup _ t _ | .clearSetup _ t | .setupAnswer _ t _ | .priceQuery _ t _ _ | .priceAnswer _ t _ _ _
  | .recallFrame _ t _ _ | .parkData _ t _ _ | .release _ t _ | .releaseAnswer _ t _ _ | .codeCheck _ t _
  | .codeCheckReturn _ t _ | .codeAnswer _ t _ _ | .relay _ t _ | .office _ t _ _ _ | .blockAck _ t _
  | .readRecords _ t _ _ _ | .records _ t _ | .eraseStaged t _ | .dept t _ _ | .itemAppend t _ _ | .sealBank t _ _ _ _
  | .signOn _ t _ _ | .signOff _ t | .scan _ t _ _ _ | .key _ t _ _ _ _ | .voidLast _ t | .voidLine _ t _
  | .override _ t _ _ _ | .subtotal _ t | .tender _ t _ _ | .refund _ t _ | .cancel _ t _ | .park _ t | .recallTicket _ t _
  | .enquire _ t _ | .headOfficeRead _ t _ _ _ => some t
  | .powerOnReset _ _ | .itemStoreRecovery | .journalRecovery | .listenEnd | .announceTimer | .contentionSlot _ _
  | .contentionRoundEnd | .transmissionSent | .garbledTransmission | .roomOffered | .badFrame _ | .ownNumberFrame
  | .frameNotDelivered _ _ _ | .duplicateHoldEnd | .duplicateListenEnd | .peerStale _ | .peerAbsent _ | .announce _ _
  | .priceNotice _ _ | .queryTimerExpiry _ | .transferTimerExpiry _ | .recallTimerExpiry _
  | .reassemblyTimerExpiry _ | .nightAssemblyTimeout _ | .bankEraseComplete _ | .switchover | .reviewWalkEnd | .dayRoll
  | .tillFrameDiscarded _ _ | .tillDataPacket _ _ | .journalGroupWritten | .journalPageEraseComplete | .labelWake _
  | .labelAck _ | .labelNoAnswer | .labelCycleEnd | .join _ | .code _ _ | .guestData _ _ | .leave _ | .guestRateWindow
  | .codeCheckTimerExpiry _ | .admissionExpiry _ | .blockExpiry _ | .codeExpiry _ | .uplinkPacket _ | .uplinkFrameEnd
  | .uplinkLinkChange _ _ | .guestCreditWindow | .nightWindowEnter | .nightWindowLeave | .callTimerExpiry | .callHoldEnd
  | .sessionAccept _ | .sessionEnd | .headOfficeBlockAck _ _ | .sessionDrained | .journalBlockTimerExpiry _ _
  | .activityBlockTimerExpiry _ | .guestAirPortMessageSent => none

/-- The operands beside the tag are within their fields. -/
def Instr.fieldsOk : Instr → Bool
  | .announce _ a => a.ok
  | .priceNotice _ g => genOk g
  | .priceAnswer _ _ g _ level => genOk g && decide (level ≤ 3)
  | .parkData _ _ _ p => p.ok
  | .relay _ _ p => p.ok
  | .office _ _ _ k n => partOk k n 64
  | .blockAck _ _ r => r.ok
  | .headOfficeBlockAck _ r => r.ok
  | .readRecords _ _ _ i _ => indexOk i
  | .headOfficeRead _ _ _ i _ => indexOk i
  | .dept _ _ es => orderOk es.length
  | .itemAppend _ _ rs => orderOk rs.length
  | .labelWake i => labelOk i
  | .labelAck a => labelOk a.label && genOk a.shown
  | .code _ cs => decide (cs.length ≤ 12)
  | .codeExpiry n => decide (n ≤ 9999)
  | .sessionAccept t => t.ok
  | .journalBlockTimerExpiry _ n => decide (1 ≤ n) && decide (n ≤ 32)
  | .activityBlockTimerExpiry n => decide (n ≤ 255)
  | .codeCheck _ _ c => decide (c.serial ≤ 9999)
  | .codeCheckReturn _ _ c => decide (c.serial ≤ 9999)
  | .codeAnswer _ _ c _ => decide (c.serial ≤ 9999)
  | .powerOnReset _ _ | .itemStoreRecovery | .journalRecovery | .listenEnd | .announceTimer | .contentionSlot _ _
  | .contentionRoundEnd | .transmissionSent | .garbledTransmission | .roomOffered | .badFrame _ | .ownNumberFrame
  | .frameNotDelivered _ _ _ | .duplicateHoldEnd | .duplicateListenEnd | .peerStale _ | .peerAbsent _ | .setup _ _ _
  | .clearSetup _ _ | .setupAnswer _ _ _ | .priceQuery _ _ _ _ | .queryTimerExpiry _ | .recallFrame _ _ _ _
  | .release _ _ _ | .releaseAnswer _ _ _ _ | .transferTimerExpiry _ | .recallTimerExpiry _ | .reassemblyTimerExpiry _
  | .nightAssemblyTimeout _ | .records _ _ _ | .eraseStaged _ _ | .bankEraseComplete _ | .sealBank _ _ _ _ _ | .switchover
  | .reviewWalkEnd | .dayRoll | .tillFrameDiscarded _ _ | .tillDataPacket _ _ | .signOn _ _ _ _ | .signOff _ _
  | .scan _ _ _ _ _ | .key _ _ _ _ _ _ | .voidLast _ _ | .voidLine _ _ _ | .override _ _ _ _ _ | .subtotal _ _
  | .tender _ _ _ _ | .refund _ _ _ | .cancel _ _ _ | .park _ _ | .recallTicket _ _ _ | .enquire _ _ _ | .journalGroupWritten
  | .journalPageEraseComplete | .labelNoAnswer | .labelCycleEnd | .join _ | .guestData _ _ | .leave _ | .guestRateWindow
  | .codeCheckTimerExpiry _ | .admissionExpiry _ | .blockExpiry _ | .uplinkPacket _ | .uplinkFrameEnd
  | .uplinkLinkChange _ _ | .guestCreditWindow | .nightWindowEnter | .nightWindowLeave | .callTimerExpiry | .callHoldEnd
  | .sessionEnd | .sessionDrained | .guestAirPortMessageSent => true

/-- A well-formed command. -/
def Instr.wellFormed (i : Instr) : Bool := i.tag.all tagOk && i.fieldsOk

end Sys2Proof
end

