-- ==== Sys2Proof/Laws/PerInstr.lean ====
section
/-!
SUPPORT. Statements made per command: a family is a property of a command as syntax, with one lemma for each
constructor.
-/

open Sys2Proof Sys2Proof.Machine

/-- The tag of a well-formed command fits its 8-bit field (Table 2-1, Table 2-13). -/
def Sys2Proof.Laws.TagFits.Statement (i : Instr) : Prop := i.wellFormed = true → ∀ t, i.tag = some t → t ≤ 255

/-- The check that `Instr.wellFormed` makes of every tag. -/
theorem Sys2Proof.Laws.tag_fits_of_wellFormed (i : Instr) : Sys2Proof.Laws.TagFits.Statement i := by
  intro h t ht
  simp only [Instr.wellFormed, ht, Option.all_some, tagOk, Bool.and_eq_true, decide_eq_true_eq] at h
  exact h.1

namespace Sys2Proof.Laws.TagFits

theorem powerOnReset (pins : Station) (cut : PowerCut) : Statement (.powerOnReset pins cut) := tag_fits_of_wellFormed _
theorem itemStoreRecovery : Statement (.itemStoreRecovery) := tag_fits_of_wellFormed _
theorem journalRecovery : Statement (.journalRecovery) := tag_fits_of_wellFormed _
theorem listenEnd : Statement (.listenEnd) := tag_fits_of_wellFormed _
theorem announceTimer : Statement (.announceTimer) := tag_fits_of_wellFormed _
theorem contentionSlot (cls : FrameClass) (carrier : Bool) :
    Statement (.contentionSlot cls carrier) := tag_fits_of_wellFormed _
theorem contentionRoundEnd : Statement (.contentionRoundEnd) := tag_fits_of_wellFormed _
theorem transmissionSent : Statement (.transmissionSent) := tag_fits_of_wellFormed _
theorem garbledTransmission : Statement (.garbledTransmission) := tag_fits_of_wellFormed _
theorem roomOffered : Statement (.roomOffered) := tag_fits_of_wellFormed _
theorem badFrame (f : RawFrame) : Statement (.badFrame f) := tag_fits_of_wellFormed _
theorem ownNumberFrame : Statement (.ownNumberFrame) := tag_fits_of_wellFormed _
theorem frameNotDelivered (src : Station) (dst : Dest) (kind : FrameKind) :
    Statement (.frameNotDelivered src dst kind) := tag_fits_of_wellFormed _
theorem duplicateHoldEnd : Statement (.duplicateHoldEnd) := tag_fits_of_wellFormed _
theorem duplicateListenEnd : Statement (.duplicateListenEnd) := tag_fits_of_wellFormed _
theorem peerStale (n : Station) : Statement (.peerStale n) := tag_fits_of_wellFormed _
theorem peerAbsent (n : Station) : Statement (.peerAbsent n) := tag_fits_of_wellFormed _
theorem announce (src : Station) (a : AnnounceInfo) : Statement (.announce src a) := tag_fits_of_wellFormed _
theorem priceNotice (src : Station) (gen : Nat) : Statement (.priceNotice src gen) := tag_fits_of_wellFormed _
theorem setup (src : Station) (tag : Nat) (r : SetupRecord) : Statement (.setup src tag r) := tag_fits_of_wellFormed _
theorem clearSetup (src : Station) (tag : Nat) : Statement (.clearSetup src tag) := tag_fits_of_wellFormed _
theorem setupAnswer (src : Station) (tag : Nat) (r : SetupResult) :
    Statement (.setupAnswer src tag r) := tag_fits_of_wellFormed _
theorem priceQuery (src : Station) (tag code : Nat) (purpose : Purpose) :
    Statement (.priceQuery src tag code purpose) := tag_fits_of_wellFormed _
theorem priceAnswer (src : Station) (tag gen : Nat) (item : ItemRecord) (level : Nat) :
    Statement (.priceAnswer src tag gen item level) := tag_fits_of_wellFormed _
theorem queryTimerExpiry (line : TillNo) : Statement (.queryTimerExpiry line) := tag_fits_of_wellFormed _
theorem recallFrame (src : Station) (tag ticket : Nat) (till : TillNo) :
    Statement (.recallFrame src tag ticket till) := tag_fits_of_wellFormed _
theorem parkData (src : Station) (tag ticket : Nat) (part : ParkPart) :
    Statement (.parkData src tag ticket part) := tag_fits_of_wellFormed _
theorem release (src : Station) (tag ticket : Nat) : Statement (.release src tag ticket) := tag_fits_of_wellFormed _
theorem releaseAnswer (src : Station) (tag ticket : Nat) (outcome : ReleaseOutcome) :
    Statement (.releaseAnswer src tag ticket outcome) := tag_fits_of_wellFormed _
theorem transferTimerExpiry (slot : ParkNo) : Statement (.transferTimerExpiry slot) := tag_fits_of_wellFormed _
theorem recallTimerExpiry (line : TillNo) : Statement (.recallTimerExpiry line) := tag_fits_of_wellFormed _
theorem codeCheck (src : Station) (tag : Nat) (code : GuestCode) :
    Statement (.codeCheck src tag code) := tag_fits_of_wellFormed _
theorem codeCheckReturn (src : Station) (tag : Nat) (code : GuestCode) :
    Statement (.codeCheckReturn src tag code) := tag_fits_of_wellFormed _
theorem codeAnswer (src : Station) (tag : Nat) (code : GuestCode) (outcome : CodeOutcome) :
    Statement (.codeAnswer src tag code outcome) := tag_fits_of_wellFormed _
theorem relay (src : Station) (tag : Nat) (part : RelayPart) :
    Statement (.relay src tag part) := tag_fits_of_wellFormed _
theorem reassemblyTimerExpiry (entry : Fin 8) : Statement (.reassemblyTimerExpiry entry) := tag_fits_of_wellFormed _
theorem office (src : Station) (tag : Nat) (msg : NightMsg) (k n : Nat) :
    Statement (.office src tag msg k n) := tag_fits_of_wellFormed _
theorem nightAssemblyTimeout (src : Station) : Statement (.nightAssemblyTimeout src) := tag_fits_of_wellFormed _
theorem blockAck (src : Station) (tag : Nat) (ref : BlockRef) :
    Statement (.blockAck src tag ref) := tag_fits_of_wellFormed _
theorem readRecords (src : Station) (tag bank index count : Nat) :
    Statement (.readRecords src tag bank index count) := tag_fits_of_wellFormed _
theorem records (src : Station) (tag : Nat) (entries : List ReadEntry) :
    Statement (.records src tag entries) := tag_fits_of_wellFormed _
theorem eraseStaged (tag : Nat) (bank : BankNo) : Statement (.eraseStaged tag bank) := tag_fits_of_wellFormed _
theorem bankEraseComplete (bank : BankNo) : Statement (.bankEraseComplete bank) := tag_fits_of_wellFormed _
theorem dept (tag : Nat) (bank : BankNo) (entries : List DeptItem) :
    Statement (.dept tag bank entries) := tag_fits_of_wellFormed _
theorem itemAppend (tag : Nat) (bank : BankNo) (items : List AppendItem) :
    Statement (.itemAppend tag bank items) := tag_fits_of_wellFormed _
theorem sealBank (tag : Nat) (bank : BankNo) (count day minute : Nat) :
    Statement (.sealBank tag bank count day minute) := tag_fits_of_wellFormed _
theorem switchover : Statement (.switchover) := tag_fits_of_wellFormed _
theorem reviewWalkEnd : Statement (.reviewWalkEnd) := tag_fits_of_wellFormed _
theorem dayRoll : Statement (.dayRoll) := tag_fits_of_wellFormed _
theorem tillFrameDiscarded (line : TillNo) (f : RawTillFrame) :
    Statement (.tillFrameDiscarded line f) := tag_fits_of_wellFormed _
theorem tillDataPacket (line : TillNo) (p : Packet) : Statement (.tillDataPacket line p) := tag_fits_of_wellFormed _
theorem signOn (line : TillNo) (tag cashier claimed : Nat) :
    Statement (.signOn line tag cashier claimed) := tag_fits_of_wellFormed _
theorem signOff (line : TillNo) (tag : Nat) : Statement (.signOff line tag) := tag_fits_of_wellFormed _
theorem scan (line : TillNo) (tag code : Nat) (measure : Measure) (claimed : Option Nat) :
    Statement (.scan line tag code measure claimed) := tag_fits_of_wellFormed _
theorem key (line : TillNo) (tag dept price : Nat) (quantity : Int) (claimed : Option Nat) :
    Statement (.key line tag dept price quantity claimed) := tag_fits_of_wellFormed _
theorem voidLast (line : TillNo) (tag : Nat) : Statement (.voidLast line tag) := tag_fits_of_wellFormed _
theorem voidLine (line : TillNo) (tag number : Nat) : Statement (.voidLine line tag number) := tag_fits_of_wellFormed _
theorem override (line : TillNo) (tag number price claimed : Nat) :
    Statement (.override line tag number price claimed) := tag_fits_of_wellFormed _
theorem subtotal (line : TillNo) (tag : Nat) : Statement (.subtotal line tag) := tag_fits_of_wellFormed _
theorem tender (line : TillNo) (tag : Nat) (method : TenderMethod) (amount : Nat) :
    Statement (.tender line tag method amount) := tag_fits_of_wellFormed _
theorem refund (line : TillNo) (tag : Nat) (claimed : Option Nat) :
    Statement (.refund line tag claimed) := tag_fits_of_wellFormed _
theorem cancel (line : TillNo) (tag claimed : Nat) : Statement (.cancel line tag claimed) := tag_fits_of_wellFormed _
theorem park (line : TillNo) (tag : Nat) : Statement (.park line tag) := tag_fits_of_wellFormed _
theorem recallTicket (line : TillNo) (tag ticket : Nat) : Statement (.recallTicket line tag ticket) := tag_fits_of_wellFormed _
theorem enquire (line : TillNo) (tag code : Nat) : Statement (.enquire line tag code) := tag_fits_of_wellFormed _
theorem journalGroupWritten : Statement (.journalGroupWritten) := tag_fits_of_wellFormed _
theorem journalPageEraseComplete : Statement (.journalPageEraseComplete) := tag_fits_of_wellFormed _
theorem labelWake (label : Nat) : Statement (.labelWake label) := tag_fits_of_wellFormed _
theorem labelAck (ack : LabelAck) : Statement (.labelAck ack) := tag_fits_of_wellFormed _
theorem labelNoAnswer : Statement (.labelNoAnswer) := tag_fits_of_wellFormed _
theorem labelCycleEnd : Statement (.labelCycleEnd) := tag_fits_of_wellFormed _
theorem join (addr : ClientAddr) : Statement (.join addr) := tag_fits_of_wellFormed _
theorem code (addr : ClientAddr) (chars : List Nat) : Statement (.code addr chars) := tag_fits_of_wellFormed _
theorem guestData (addr : ClientAddr) (p : Packet) : Statement (.guestData addr p) := tag_fits_of_wellFormed _
theorem leave (addr : ClientAddr) : Statement (.leave addr) := tag_fits_of_wellFormed _
theorem guestRateWindow : Statement (.guestRateWindow) := tag_fits_of_wellFormed _
theorem codeCheckTimerExpiry (entry : Fin 128) : Statement (.codeCheckTimerExpiry entry) := tag_fits_of_wellFormed _
theorem admissionExpiry (entry : Fin 128) : Statement (.admissionExpiry entry) := tag_fits_of_wellFormed _
theorem blockExpiry (entry : Fin 128) : Statement (.blockExpiry entry) := tag_fits_of_wellFormed _
theorem codeExpiry (serial : Nat) : Statement (.codeExpiry serial) := tag_fits_of_wellFormed _
theorem uplinkPacket (p : Packet) : Statement (.uplinkPacket p) := tag_fits_of_wellFormed _
theorem uplinkFrameEnd : Statement (.uplinkFrameEnd) := tag_fits_of_wellFormed _
theorem uplinkLinkChange (up : Bool) (rate : LinkRate) :
    Statement (.uplinkLinkChange up rate) := tag_fits_of_wellFormed _
theorem guestCreditWindow : Statement (.guestCreditWindow) := tag_fits_of_wellFormed _
theorem nightWindowEnter : Statement (.nightWindowEnter) := tag_fits_of_wellFormed _
theorem nightWindowLeave : Statement (.nightWindowLeave) := tag_fits_of_wellFormed _
theorem callTimerExpiry : Statement (.callTimerExpiry) := tag_fits_of_wellFormed _
theorem callHoldEnd : Statement (.callHoldEnd) := tag_fits_of_wellFormed _
theorem sessionAccept (t : Time) : Statement (.sessionAccept t) := tag_fits_of_wellFormed _
theorem sessionEnd : Statement (.sessionEnd) := tag_fits_of_wellFormed _
theorem headOfficeRead (target : Station) (tag bank index count : Nat) :
    Statement (.headOfficeRead target tag bank index count) := tag_fits_of_wellFormed _
theorem headOfficeBlockAck (station : Station) (ref : BlockRef) :
    Statement (.headOfficeBlockAck station ref) := tag_fits_of_wellFormed _
theorem sessionDrained : Statement (.sessionDrained) := tag_fits_of_wellFormed _
theorem journalBlockTimerExpiry (first : Seq) (count : Nat) :
    Statement (.journalBlockTimerExpiry first count) := tag_fits_of_wellFormed _
theorem activityBlockTimerExpiry (number : Nat) :
    Statement (.activityBlockTimerExpiry number) := tag_fits_of_wellFormed _
theorem guestAirPortMessageSent : Statement (.guestAirPortMessageSent) := tag_fits_of_wellFormed _

end Sys2Proof.Laws.TagFits
end

