-- ==== Sys2Proof/Laws/Tables.lean ====
section
/-!
SUPPORT. The laws of the stores: what a sparse table reads after a write, that every operation of the part's stores
keeps the canonical form of its tables and flag sets, and that the journal's operations keep its account.
-/

namespace Sys2Proof.Machine

/-! ## Vectors -/

theorem updAt_eq_set {α : Type} {n : Nat} (v : Vector α n) (k : Fin n) (f : α → α) : updAt v k f = v.set k.1 (f v[k]) :=
  rfl

theorem updAt_get {α : Type} {n : Nat} (v : Vector α n) (k i : Fin n) (f : α → α) :
    (updAt v k f)[i] = if i = k then f v[k] else v[i] := by
  simp only [updAt, Fin.getElem_fin, Vector.getElem_set]
  by_cases h : i = k
  · simp [h]
  · simp [h, Fin.val_ne_of_ne (Ne.symm h)]

@[simp] theorem updAll_get {α β : Type} {n : Nat} (v : Vector α n) (f : Fin n → α → β) (i : Fin n) :
    (updAll v f)[i] = f i v[i] := by
  simp [updAll]

theorem set_set {α : Type} {n : Nat} (v : Vector α n) (k : Nat) (h : k < n) (x y : α) :
    (v.set k x h).set k y h = v.set k y h := by
  ext i hi; simp only [Vector.getElem_set]; split <;> rfl

theorem mem_fins {n : Nat} (i : Fin n) : i ∈ fins n := by simp [fins]

/-! ## Sparse tables -/

section Tables

variable {α : Type} [DecidableEq α] (d : α)

/-- The canonical form of a table with a first pair. -/
theorem Tbl.wf_cons (i : Nat) (v : α) (t : Tbl α) :
    Tbl.wf d ((i, v) :: t) = true ↔ v ≠ d ∧ (∀ e ∈ t, i < e.1) ∧ Tbl.wf d t = true := by
  induction t generalizing i v with
  | nil => simp [Tbl.wf]
  | cons e t ih =>
    obtain ⟨j, w⟩ := e
    simp only [Tbl.wf, Bool.and_eq_true, decide_eq_true_eq, List.forall_mem_cons]
    constructor
    · rintro ⟨⟨hv, hij⟩, ht⟩
      exact ⟨hv, ⟨hij, fun e he => Nat.lt_trans hij (((ih j w).1 ht).2.1 e he)⟩, ht⟩
    · rintro ⟨hv, ⟨hij, -⟩, ht⟩
      exact ⟨⟨hv, hij⟩, ht⟩

omit [DecidableEq α] in
theorem Tbl.get_unlisted (t : Tbl α) (k : Nat) (h : ∀ e ∈ t, e.1 ≠ k) : Tbl.get d t k = d := by
  induction t with
  | nil => rfl
  | cons e t ih =>
    obtain ⟨i, v⟩ := e
    simp only [List.forall_mem_cons] at h
    simp [Tbl.get, h.1, ih h.2]

/-- A read after a write: the value written there, and what was there before everywhere else. -/
theorem Tbl.get_put (t : Tbl α) (ht : Tbl.wf d t = true) (k j : Nat) (x : α) :
    Tbl.get d (Tbl.put d t k x) j = if j = k then x else Tbl.get d t j := by
  induction t with
  | nil =>
    by_cases hx : x = d
    · simp [Tbl.put, hx, Tbl.get]
    · simp [Tbl.put, hx, Tbl.get, eq_comm]
  | cons e t ih =>
    obtain ⟨i, v⟩ := e
    obtain ⟨hv, hlt, ht⟩ := (Tbl.wf_cons d i v t).1 ht
    have unlisted : ∀ n ≤ i, Tbl.get d t n = d := fun n hn =>
      Tbl.get_unlisted d t n fun e he => by have := hlt e he; omega
    simp only [Tbl.put]
    split
    · have := ih ht
      simp only [Tbl.get, this]
      split <;> split <;> first | rfl | omega
    · split
      · split
        · subst_vars; simp only [Tbl.get]
          split
          · subst_vars; exact unlisted _ (Nat.le_refl _)
          · rw [if_neg (by omega)]
        · subst_vars; simp only [Tbl.get, eq_comm]
          split <;> rfl
      · split
        · rename_i h1 h2 hx
          split
          · subst hx; subst_vars; simp only [Tbl.get]; rw [if_neg (by omega)]; exact unlisted _ (by omega)
          · rfl
        · simp only [Tbl.get, eq_comm]

/-- The pairs of a table after a write come from the table or are the pair written. -/
theorem Tbl.mem_put (t : Tbl α) (k : Nat) (x : α) (e : Nat × α) (he : e ∈ Tbl.put d t k x) : e ∈ t ∨ e = (k, x) := by
  induction t with
  | nil => simp only [Tbl.put] at he; split at he <;> simp_all
  | cons c t ih =>
    obtain ⟨i, v⟩ := c
    simp only [Tbl.put] at he
    split at he
    · simp only [List.mem_cons] at he ⊢
      rcases he with he | he
      · exact .inl (.inl he)
      · rcases ih he with h | h
        · exact .inl (.inr h)
        · exact .inr h
    · split at he <;> split at he <;> grind

/-- A write keeps the canonical form. -/
theorem Tbl.put_wf (t : Tbl α) (ht : Tbl.wf d t = true) (k : Nat) (x : α) : Tbl.wf d (Tbl.put d t k x) = true := by
  induction t with
  | nil => simp only [Tbl.put]; split <;> simp_all [Tbl.wf]
  | cons e t ih =>
    obtain ⟨i, v⟩ := e
    obtain ⟨hv, hlt, hw⟩ := (Tbl.wf_cons d i v t).1 ht
    simp only [Tbl.put]
    split
    · refine (Tbl.wf_cons d i v _).2 ⟨hv, fun e he => ?_, ih hw⟩
      rcases Tbl.mem_put d t k x e he with h | rfl
      · exact hlt e h
      · assumption
    · split
      · subst_vars
        split
        · exact hw
        · exact (Tbl.wf_cons d _ x t).2 ⟨by assumption, hlt, hw⟩
      · split
        · exact ht
        · refine (Tbl.wf_cons d k x _).2 ⟨by assumption, ?_, ht⟩
          simp only [List.forall_mem_cons]
          exact ⟨by omega, fun e he => by have := hlt e he; omega⟩

/-- A change of many places keeps the canonical form. -/
theorem Tbl.update_wf (f : Nat → α → α) (t : Tbl α) (keys : List Nat) (ht : Tbl.wf d t = true) :
    Tbl.wf d (Tbl.update d f t keys) = true := by
  induction keys generalizing t with
  | nil => exact ht
  | cons k ks ih => exact ih _ (Tbl.put_wf d t ht k _)

/-- What each place reads after a change of many places, no place named twice. -/
theorem Tbl.get_update (f : Nat → α → α) (t : Tbl α) (keys : List Nat) (ht : Tbl.wf d t = true) (hk : keys.Nodup)
    (j : Nat) : Tbl.get d (Tbl.update d f t keys) j = if j ∈ keys then f j (Tbl.get d t j) else Tbl.get d t j := by
  induction keys generalizing t with
  | nil => simp [Tbl.update]
  | cons k ks ih =>
    have h := ih (Tbl.put d t k (f k (Tbl.get d t k))) (Tbl.put_wf d t ht k _) (List.nodup_cons.1 hk).2
    have hn := (List.nodup_cons.1 hk).1
    simp only [Tbl.update, List.foldl_cons] at h ⊢
    rw [h, Tbl.get_put d t ht]
    by_cases hj : j = k
    · subst hj; simp [hn]
    · simp [hj]

/-- Leaving pairs out keeps the canonical form. -/
theorem Tbl.filter_wf (t : Tbl α) (p : Nat × α → Bool) (ht : Tbl.wf d t = true) : Tbl.wf d (t.filter p) = true := by
  induction t with
  | nil => rfl
  | cons e t ih =>
    obtain ⟨i, v⟩ := e
    obtain ⟨hv, hlt, hw⟩ := (Tbl.wf_cons d i v t).1 ht
    simp only [List.filter_cons]
    split
    · exact (Tbl.wf_cons d i v _).2 ⟨hv, fun e he => hlt e (List.mem_filter.1 he).1, ih hw⟩
    · exact ih hw

/-- Changing values to others that an unlisted place does not read as keeps the canonical form. -/
theorem Tbl.map_wf (t : Tbl α) (f : Nat × α → α) (hf : ∀ e, e.2 ≠ d → f e ≠ d) (ht : Tbl.wf d t = true) :
    Tbl.wf d (t.map fun e => (e.1, f e)) = true := by
  induction t with
  | nil => rfl
  | cons e t ih =>
    obtain ⟨i, v⟩ := e
    obtain ⟨hv, hlt, hw⟩ := (Tbl.wf_cons d i v t).1 ht
    rw [List.map_cons]
    refine (Tbl.wf_cons d i _ _).2 ⟨hf _ hv, fun e he => ?_, ih hw⟩
    obtain ⟨c, hc, rfl⟩ := List.mem_map.1 he
    exact hlt c hc

/-- The listed indexes of a canonical table rise. -/
theorem Tbl.keys_wf (t : Tbl α) (ht : Tbl.wf d t = true) : Flags.wf (Tbl.keys t) = true := by
  induction t with
  | nil => rfl
  | cons e t ih =>
    obtain ⟨i, v⟩ := e
    obtain ⟨-, hlt, hw⟩ := (Tbl.wf_cons d i v t).1 ht
    cases t with
    | nil => rfl
    | cons c t => simp only [Tbl.keys, List.map_cons, Flags.wf, Bool.and_eq_true, decide_eq_true_eq]; exact ⟨hlt c (by simp), ih hw⟩

end Tables

/-! ## Flag sets -/

theorem Flags.wf_cons (i : Nat) (t : List Nat) : Flags.wf (i :: t) = true ↔ (∀ k ∈ t, i < k) ∧ Flags.wf t = true := by
  induction t generalizing i with
  | nil => simp [Flags.wf]
  | cons j t ih =>
    simp only [Flags.wf, Bool.and_eq_true, decide_eq_true_eq, List.forall_mem_cons]
    constructor
    · rintro ⟨hij, ht⟩
      exact ⟨⟨hij, fun k hk => Nat.lt_trans hij (((ih j).1 ht).1 k hk)⟩, ht⟩
    · rintro ⟨⟨hij, -⟩, ht⟩
      exact ⟨hij, ht⟩

/-- The flags set after one is set. -/
@[simp] theorem Flags.mem_set (a : List Nat) (k j : Nat) : j ∈ Flags.set a k ↔ j ∈ a ∨ j = k := by
  induction a with
  | nil => simp [Flags.set]
  | cons i t ih =>
    simp only [Flags.set]
    split
    · simp only [List.mem_cons, ih]; grind
    · split <;> grind

theorem Flags.set_wf (a : List Nat) (k : Nat) (h : Flags.wf a = true) : Flags.wf (Flags.set a k) = true := by
  induction a with
  | nil => rfl
  | cons i t ih =>
    obtain ⟨hlt, ht⟩ := (Flags.wf_cons i t).1 h
    simp only [Flags.set]
    split
    · refine (Flags.wf_cons i _).2 ⟨fun j hj => ?_, ih ht⟩
      rcases (Flags.mem_set t k j).1 hj with hj | rfl
      · exact hlt j hj
      · assumption
    · split
      · exact h
      · refine (Flags.wf_cons k _).2 ⟨?_, h⟩
        simp only [List.forall_mem_cons]
        exact ⟨by omega, fun j hj => by have := hlt j hj; omega⟩

/-- The flags of a merge are those of both sets. -/
@[simp] theorem Flags.mem_merge (a b : List Nat) (j : Nat) : j ∈ Flags.merge a b ↔ j ∈ a ∨ j ∈ b := by
  induction b generalizing a with
  | nil => simp [Flags.merge]
  | cons k b ih =>
    simp only [Flags.merge, List.foldl_cons] at ih ⊢
    rw [ih]; simp only [Flags.mem_set, List.mem_cons]; grind

theorem Flags.merge_wf (a b : List Nat) (h : Flags.wf a = true) : Flags.wf (Flags.merge a b) = true := by
  induction b generalizing a with
  | nil => exact h
  | cons k b ih => exact ih _ (Flags.set_wf a k h)

theorem Flags.filter_wf (a : List Nat) (p : Nat → Bool) (h : Flags.wf a = true) : Flags.wf (a.filter p) = true := by
  induction a with
  | nil => rfl
  | cons i t ih =>
    obtain ⟨hlt, ht⟩ := (Flags.wf_cons i t).1 h
    simp only [List.filter_cons]
    split
    · exact (Flags.wf_cons i _).2 ⟨fun k hk => hlt k (List.mem_filter.1 hk).1, ih ht⟩
    · exact ih ht

theorem Flags.clear_wf (a b : List Nat) (h : Flags.wf a = true) : Flags.wf (Flags.clear a b) = true :=
  Flags.filter_wf a _ h

/-- No index stands twice in a canonical flag set. -/
theorem Flags.nodup (a : List Nat) (h : Flags.wf a = true) : a.Nodup := by
  induction a with
  | nil => exact List.nodup_nil
  | cons i t ih =>
    obtain ⟨hlt, ht⟩ := (Flags.wf_cons i t).1 h
    exact List.nodup_cons.2 ⟨fun hi => Nat.lt_irrefl i (hlt i hi), ih ht⟩

/-! ## The item store -/

theorem ItemStore.bank_setBank (i : ItemStore) (b c : BankNo) (x : Bank) :
    (i.setBank b x).bank c = if c = b then x else i.bank c := by
  simp only [ItemStore.setBank, ItemStore.bank]
  exact updAt_get i.banks b c fun _ => x

theorem Bank.opened_depts (b : Bank) (gen : Nat) : (b.opened gen).depts = b.depts := by
  unfold Bank.opened; split <;> rfl

theorem Bank.opened_records (b : Bank) (gen : Nat) : (b.opened gen).records = b.records := by
  unfold Bank.opened; split <;> rfl

/-- A DEPT order keeps the department table canonical. -/
theorem Bank.runDept_wf (gen : Nat) (es : List DeptItem) (b : Bank) (n : Nat) (h : Tbl.wf none b.depts = true) :
    Tbl.wf none (b.runDept gen es n).1.depts = true := by
  induction es generalizing b n with
  | nil => exact h
  | cons e es ih =>
    simp only [Bank.runDept]
    split
    · exact h
    · split
      · exact h
      · exact ih _ _ (Tbl.put_wf none _ (by rw [Bank.opened_depts]; exact h) _ _)

/-- An ITEM APPEND leaves the department table alone. -/
theorem Bank.runAppend_depts (gen : Nat) (rs : List AppendItem) (b : Bank) (n : Nat) :
    (b.runAppend gen rs n).1.depts = b.depts := by
  induction rs generalizing b n with
  | nil => rfl
  | cons r rs ih =>
    simp only [Bank.runAppend]
    split
    · rfl
    · rw [ih]; simp [Bank.append, Bank.opened_depts]

theorem ItemStore.rollFlags_wf (i : ItemStore) (h : Flags.wf i.activity = true) :
    Flags.wf i.rollFlags.activity = true ∧ i.rollFlags.accessed = [] :=
  ⟨Flags.merge_wf _ _ h, rfl⟩

/-! ## The label table -/

theorem LabelRadio.label_setLabel (l : LabelRadio) (h : Tbl.wf {} l.labels = true) (i j : Nat) (e : LabelEntry) :
    (l.setLabel i e).label j = if j = i then e else l.label j :=
  Tbl.get_put (α := LabelEntry) {} l.labels h i j e

theorem LabelRadio.setLabel_wf (l : LabelRadio) (h : Tbl.wf {} l.labels = true) (i : Nat) (e : LabelEntry) :
    Tbl.wf {} (l.setLabel i e).labels = true :=
  Tbl.put_wf (α := LabelEntry) {} l.labels h i e

theorem LabelRadio.mapLabels_wf (l : LabelRadio) (h : Tbl.wf {} l.labels = true) (f : LabelEntry → LabelEntry) :
    Tbl.wf {} (l.mapLabels f).labels = true :=
  Tbl.update_wf (α := LabelEntry) {} _ _ _ h

/-- A change of every entry changes every label, where it leaves an unlisted label's entry alone. -/
theorem LabelRadio.label_mapLabels (l : LabelRadio) (h : Tbl.wf {} l.labels = true) (f : LabelEntry → LabelEntry)
    (hf : f {} = {}) (i : Nat) : (l.mapLabels f).label i = f (l.label i) := by
  have hk := Flags.nodup _ (Tbl.keys_wf (α := LabelEntry) {} l.labels h)
  have := Tbl.get_update (α := LabelEntry) {} (fun _ e => f e) l.labels (Tbl.keys l.labels) h hk i
  simp only [LabelRadio.label, LabelRadio.mapLabels, this]
  split
  · rfl
  · rename_i hi
    rw [Tbl.get_unlisted (α := LabelEntry) {} l.labels i fun e he hei => hi (List.mem_map.2 ⟨e, he, hei⟩), hf]

theorem bindRecords_wf (t : Tbl LabelEntry) (rs : List ItemRecord) (h : Tbl.wf {} t = true) :
    Tbl.wf {} (bindRecords t rs) = true := by
  unfold bindRecords
  generalize rs.zipIdx = es
  induction es generalizing t with
  | nil => exact h
  | cons e es ih =>
    simp only [List.foldl_cons]
    split
    · exact ih _ (Tbl.put_wf (α := LabelEntry) {} t h _ _)
    · exact ih _ h

theorem LabelRadio.build_wf (l : LabelRadio) (bank : Option Bank) : Tbl.wf {} (l.build bank).labels = true :=
  bindRecords_wf [] _ rfl

theorem LabelRadio.applyVerdicts_wf (l : LabelRadio) (old : Option Bank) (new : Bank) (gen : Nat)
    (h : Tbl.wf {} l.labels = true) : Tbl.wf {} (l.applyVerdicts old new gen).labels = true :=
  Tbl.update_wf (α := LabelEntry) {} (fun i e => e.verdict (verdictOf old new i e) (old.map Bank.sealGen) gen) _ _ h

/-! ## The journal -/

/-- Both of the journal's tables are canonical. -/
def JournalUnit.TablesWf (j : JournalUnit) : Prop := Tbl.wf none j.words = true ∧ Tbl.wf .erased j.slots = true

theorem JournalUnit.writeRecord_wf (j : JournalUnit) (b : JBody) (h : j.TablesWf) : (j.writeRecord b).TablesWf := by
  unfold JournalUnit.writeRecord JournalUnit.openPage
  split
  · exact ⟨Tbl.put_wf none _ h.1 _ _, Tbl.put_wf JSlot.erased _ h.2 _ _⟩
  · exact ⟨h.1, Tbl.put_wf JSlot.erased _ h.2 _ _⟩

theorem JournalUnit.writeRecords_wf (bs : List JBody) (j : JournalUnit) (h : j.TablesWf) :
    (bs.foldl JournalUnit.writeRecord j).TablesWf := by
  induction bs generalizing j with
  | nil => exact h
  | cons b bs ih => exact ih _ (j.writeRecord_wf b h)

theorem JournalUnit.writeRecord_counts (j : JournalUnit) (b : JBody) :
    (j.writeRecord b).tailPos = j.tailPos + 1 ∧ (j.writeRecord b).used = j.used ∧
      (j.writeRecord b).reserved = j.reserved ∧ (j.writeRecord b).free = j.free ∧
      (j.writeRecord b).erasing = j.erasing ∧ (j.writeRecord b).oldest = j.oldest ∧
      (j.writeRecord b).head = j.head ∧ (j.writeRecord b).queue = j.queue := by
  unfold JournalUnit.writeRecord JournalUnit.openPage; split <;> simp

/-- Writing records moves the tail, and none of the counts. -/
theorem JournalUnit.writeRecords_counts (bs : List JBody) (j : JournalUnit) :
    (bs.foldl JournalUnit.writeRecord j).tailPos = j.tailPos + bs.length ∧
      (bs.foldl JournalUnit.writeRecord j).used = j.used ∧ (bs.foldl JournalUnit.writeRecord j).reserved = j.reserved ∧
      (bs.foldl JournalUnit.writeRecord j).free = j.free ∧ (bs.foldl JournalUnit.writeRecord j).erasing = j.erasing ∧
      (bs.foldl JournalUnit.writeRecord j).oldest = j.oldest ∧ (bs.foldl JournalUnit.writeRecord j).head = j.head ∧
      (bs.foldl JournalUnit.writeRecord j).queue = j.queue := by
  induction bs generalizing j with
  | nil => simp
  | cons b bs ih =>
    have h := ih (j.writeRecord b)
    obtain ⟨h1, h2, h3, h4, h5, h6, h7, h8⟩ := j.writeRecord_counts b
    simp only [List.foldl_cons, List.length_cons]
    rw [h1, h2, h3, h4, h5, h6, h7, h8] at h
    exact ⟨by omega, h.2⟩

/-- The sum of the four counts. -/
def JournalUnit.account (j : JournalUnit) : Nat := j.used + j.reserved + j.free + j.erasingCount

/-- A reservation passes slots from free to reserved, or changes nothing. -/
@[simp] theorem JournalUnit.account_reserve (j : JournalUnit) (n : Nat) : (j.reserve n).account = j.account := by
  unfold JournalUnit.reserve
  split
  · simp only [JournalUnit.account, show ({ j with free := j.free - n, reserved := j.reserved + n } : JournalUnit).erasingCount =
      j.erasingCount from rfl]; omega
  · rfl

@[simp] theorem JournalUnit.account_release (j : JournalUnit) (n : Nat) : (j.release n).account = j.account := by
  simp only [JournalUnit.account, JournalUnit.release]
  rw [show ∀ (a b : Nat), ({ j with reserved := a, free := b } : JournalUnit).erasingCount = j.erasingCount from fun _ _ => rfl]
  omega

@[simp] theorem JournalUnit.account_startErase (j : JournalUnit) : j.startErase.account = j.account := by
  unfold JournalUnit.startErase
  split
  · rename_i h
    have he : j.erasing.isSome = false := by simpa using h.1
    simp only [JournalUnit.account, JournalUnit.erasingCount, he, Option.isSome_some]
    simp only [if_true, Bool.false_eq_true, if_false]; omega
  · rfl

@[simp] theorem JournalUnit.account_writeGroup (j : JournalUnit) (g : Group) : (j.writeGroup g).account = j.account := by
  obtain ⟨-, h2, h3, h4, h5, -⟩ := JournalUnit.writeRecords_counts g.bodies j
  simp only [JournalUnit.writeGroup, JournalUnit.account_startErase]
  simp only [JournalUnit.account, JournalUnit.erasingCount, h2, h3, h4, h5]; omega

theorem JournalUnit.startErase_wf (j : JournalUnit) (h : j.TablesWf) : j.startErase.TablesWf := by
  unfold JournalUnit.startErase; split <;> exact h

theorem JournalUnit.writeGroup_wf (j : JournalUnit) (g : Group) (h : j.TablesWf) : (j.writeGroup g).TablesWf :=
  JournalUnit.startErase_wf _ (JournalUnit.writeRecords_wf g.bodies j h)

theorem JournalUnit.clearPage_wf (j : JournalUnit) (page : Nat) (h : j.TablesWf) : (j.clearPage page).TablesWf :=
  ⟨Tbl.put_wf none _ h.1 _ _, Tbl.filter_wf JSlot.erased _ _ h.2⟩

theorem JournalUnit.payOwed_wf (j : JournalUnit) (h : j.TablesWf) : j.payOwed.TablesWf := by
  unfold JournalUnit.payOwed
  split
  · exact h
  · exact j.writeRecord_wf _ h

theorem JournalUnit.eraseComplete_wf (j : JournalUnit) (h : j.TablesWf) : j.eraseComplete.TablesWf := by
  unfold JournalUnit.eraseComplete
  split
  · exact h
  · exact JournalUnit.startErase_wf _ (JournalUnit.payOwed_wf _ (j.clearPage_wf _ h))

theorem JSlot.ack_ne_erased (x : JSlot) (h : x ≠ .erased) : x.ack ≠ .erased := by
  cases x <;> simp_all [JSlot.ack]

/-- An acknowledgement keeps the journal's tables canonical. -/
theorem JournalUnit.ack_wf (j : JournalUnit) (first : Seq) (count : Nat) (h : j.TablesWf) :
    (j.ack first count).TablesWf := by
  refine JournalUnit.startErase_wf _ ⟨h.1, Tbl.map_wf JSlot.erased j.slots _ (fun e he => ?_) h.2⟩
  split
  · exact JSlot.ack_ne_erased _ he
  · exact he

theorem JournalUnit.voidLast_wf (j : JournalUnit) (tail : Nat) (h : j.TablesWf) : (j.voidLast tail).TablesWf := by
  unfold JournalUnit.voidLast
  split
  · exact ⟨h.1, Tbl.put_wf JSlot.erased _ h.2 _ _⟩
  · exact h

/-- Recovery keeps the journal's tables canonical. -/
theorem JournalUnit.recover_wf (j : JournalUnit) (h : j.TablesWf) : j.recover.TablesWf := by
  have hl : ∀ k : JournalUnit, k.TablesWf → k.locate.TablesWf := fun k hk => by
    unfold JournalUnit.locate
    dsimp only
    split
    · split
      · exact JournalUnit.voidLast_wf k _ hk
      · exact hk
    · exact hk
  have hc : ∀ k : JournalUnit, k.TablesWf → k.closeTrail.TablesWf := fun k hk => by
    unfold JournalUnit.closeTrail
    dsimp only
    split
    · exact hk
    · split
      · exact JournalUnit.payOwed_wf _ hk
      · exact hk
  exact JournalUnit.startErase_wf _ (hc _ (hl _ h))

/-- A power loss leaves the journal's tables canonical. -/
theorem JournalUnit.afterCut_wf (j : JournalUnit) (cut : PowerCut) (h : j.TablesWf) : (j.afterCut cut).TablesWf := by
  have h1 := JournalUnit.writeRecords_wf (((j.queue.map (·.bodies)).headD []).take cut.groupRecords) j h
  have ho : ∀ k : JournalUnit, k.TablesWf → k.openPage.TablesWf := fun k hk => by
    unfold JournalUnit.openPage
    split
    · exact ⟨Tbl.put_wf none _ hk.1 _ _, hk.2⟩
    · exact hk
  have hp : ∀ k : JournalUnit, k.TablesWf → JournalUnit.TablesWf (match k.erasing, cut.page with
      | some e, .wordCleared => { k with words := Tbl.put none k.words e.page none }
      | some e, .allErased => k.clearPage e.page
      | _, _ => k) := fun k hk => by
    split
    · exact ⟨Tbl.put_wf none _ hk.1 _ _, hk.2⟩
    · exact k.clearPage_wf _ hk
    · exact hk
  unfold JournalUnit.afterCut
  refine hp _ ?_
  split
  · exact h1
  · split
    · exact h1
    · exact ho _ h1
    · exact ⟨(ho _ h1).1, Tbl.put_wf JSlot.erased _ (ho _ h1).2 _ _⟩

end Sys2Proof.Machine
end

