-- ==== Sys2Proof/Laws/Requests.lean ====
section
/-!
SUPPORT. How a command reaches its block, said once: a till's request past its checks or refused by a field, a frame of
another station delivered or not, a frame handed to the trunk port, a ticket read, a record found, the packets of withdrawn parts.
-/

namespace Sys2Proof.Machine

/-! ## Till requests -/

/-- A request that passes every check is taken. -/
theorem State.request_taken {s : State} {k : TillNo} {t : Nat} {kind : ReqKind} {fields : List (Option Refused)}
    {f : State → State} (h : s.Accepts k kind) (hf : firstRefusal fields = none) : s.request k t kind fields f = f s := by
  obtain ⟨h1, h2, h3, h4⟩ := h
  have : s.judgeRequest k kind fields = none := by
    simp only [State.judgeRequest]
    simp only [firstRefusal] at hf ⊢
    split at h4
    · rename_i hk; subst hk
      simp [refuseIf, h3, h4, hf]
    · rename_i hk
      simp [refuseIf, h3, h4, hk]
      cases hh : (s.till k).session <;> simp_all
      exact hf
  simp [State.request, h1, h2, this]

/-- A request that the field checks refuse is answered so, and nothing else changes. -/
theorem State.request_field {s : State} {k : TillNo} {t : Nat} {kind : ReqKind} {fields : List (Option Refused)}
    {r : Refused} {f : State → State} (h : s.Accepts k kind) (hf : firstRefusal fields = some r) :
    s.request k t kind fields f = { s with out := s.out ++ [.answer k t (.refused r)] } := by
  obtain ⟨h1, h2, h3, h4⟩ := h
  have : s.judgeRequest k kind fields = some r := by
    simp only [State.judgeRequest]
    simp only [firstRefusal] at hf ⊢
    split at h4
    · rename_i hk; subst hk
      simp [refuseIf, h3, h4, hf]
    · rename_i hk
      simp [refuseIf, h3, h4, hk]
      cases hh : (s.till k).session <;> simp_all
  simp [State.request, h1, h2, this, State.refuse, State.answer, State.emit]

theorem State.isSet_iff (s : State) : s.isSet = true ↔ ∃ r, s.sc.page = some r := by
  simp [State.isSet, Option.isSome_iff_exists]

/-! ## Frames of other stations -/

theorem State.roundOver_eq_heard (s : State) : s.roundOver = s.heard := rfl

/-- In ACTIVE a frame of another number reaches its block. -/
theorem State.deliver_active {s : State} {src : Station} {kind : FrameKind} {f : State → State} (h : src ≠ s.stn)
    (ha : s.tp.trunk = .active) : s.deliver src kind f = f s.heard := by
  simp [State.deliver, h, ha, TrunkState.delivers, State.roundOver_eq_heard, State.heard]

/-- A frame that the trunk state does not deliver ends a sit-out and does nothing else. -/
theorem State.deliver_not {s : State} {src : Station} {kind : FrameKind} {f : State → State} (h : src ≠ s.stn)
    (ha : s.tp.trunk.delivers kind = false) : s.deliver src kind f = s.heard := by
  simp [State.deliver, h, ha, State.roundOver_eq_heard, State.heard]

/-! ## Hand-over -/

/-- A class B frame in ACTIVE with room is placed at the end of the B queue. -/
theorem TrunkPort.handOver_b_placed {t : TrunkPort} {f : Frame} (hf : f.frameClass = .b) (ha : t.trunk = .active)
    (hl : t.qB.length < 16) : t.handOver f = (.placed, { t with qB := t.qB ++ [f] }) := by
  simp [TrunkPort.handOver, hf, ha, hl]

/-- A class B frame in ACTIVE without room is refused BUSY. -/
theorem TrunkPort.handOver_b_busy {t : TrunkPort} {f : Frame} (hf : f.frameClass = .b) (ha : t.trunk = .active)
    (hl : 16 ≤ t.qB.length) : t.handOver f = (.busy, t) := by
  simp [TrunkPort.handOver, hf, ha, Nat.not_lt.2 hl]

/-- Out of ACTIVE a class B or C frame is refused NO-TRUNK. -/
theorem TrunkPort.handOver_noTrunk {t : TrunkPort} {f : Frame} (hf : f.frameClass ≠ .a) (ha : t.trunk ≠ .active) :
    t.handOver f = (.noTrunk, t) := by
  unfold TrunkPort.handOver
  split <;> simp_all

/-- Whatever becomes of a frame handed over, the trunk state, the frame being sent, the peer table and the counters but
that of dropped guest packets stay. -/
theorem TrunkPort.handOver_keeps (t : TrunkPort) (f : Frame) :
    (t.handOver f).2.trunk = t.trunk ∧ (t.handOver f).2.trunkMs = t.trunkMs ∧ (t.handOver f).2.sending = t.sending ∧
      (t.handOver f).2.peers = t.peers ∧ (t.handOver f).2.sitOut = t.sitOut ∧
      (t.handOver f).2.roundLeft = t.roundLeft ∧ (t.handOver f).2.recordC = t.recordC ∧
      (t.handOver f).2.badFrames = t.badFrames ∧ (t.handOver f).2.collisions = t.collisions ∧
      (t.handOver f).2.duplicateEntries = t.duplicateEntries ∧ (t.handOver f).2.lastGarble = t.lastGarble := by
  unfold TrunkPort.handOver TrunkPort.handA
  repeat' split
  all_goals simp

/-! ## Tickets and records -/

theorem State.ownSlot_none {s : State} {ticket : Nat} (h : ∀ j : ParkNo, ticket ≠ s.stn.val * 100 + j.val) :
    s.ownSlot ticket = none := by
  unfold State.ownSlot readTicket
  split
  · rename_i hh
    simp only [Option.bind_some]
    split
    · rename_i h2
      have h3 : ticket / 100 = s.stn.val := congrArg Fin.val h2
      have := h ⟨ticket % 100, by omega⟩
      simp only at this
      omega
    · rfl
  · rfl

theorem State.ownSlot_some (s : State) (j : ParkNo) : s.ownSlot (s.stn.val * 100 + j.val) = some j := by
  unfold State.ownSlot readTicket
  have := s.stn.isLt
  have := j.isLt
  have h1 : (s.stn.val * 100 + j.val) / 100 = s.stn.val := by omega
  have h2 : (s.stn.val * 100 + j.val) % 100 = j.val := by omega
  simp only [h1, h2]
  rw [dif_pos ⟨by omega, by omega⟩]
  simp

/-- The only member of a list with a property is the one found, with its position. -/
theorem find_unique {α : Type} (l : List α) (p : α → Bool) (n : Nat) (x : α) (h : l[n]? = some x) (hp : p x = true)
    (hu : ∀ (q : Nat) (y : α), l[q]? = some y → p y = true → q = n) :
    (l.zipIdx.find? fun e => p e.1) = some (x, n) := by
  obtain ⟨hl, hx⟩ := List.getElem?_eq_some_iff.1 h
  rw [List.find?_eq_some_iff_getElem]
  refine ⟨hp, n, by simpa using hl, by simp [hx], fun j hj => ?_⟩
  simp only [List.getElem_zipIdx, Bool.not_eq_true']
  rw [← Bool.not_eq_true]; intro hc
  have := hu j l[j] (by simp) hc
  omega

/-! ## Withdrawn packets (R164, R165) -/

/-- A part before whole packets, each from its part 1, continues none of them. -/
theorem joinPart_of_whole (x : Withdrawn) (ws : List Withdrawn) (h : ∀ w ∈ ws, w.first = 1) (hx : 1 ≤ x.last) :
    joinPart x ws = x :: ws := by
  have : ws.find? x.continues = none := by
    simp only [List.find?_eq_none, Withdrawn.continues]
    intro w hw; simp [h w hw]; omega
  simp [joinPart, this]

/-- The parts of one packet, from a on, join into one before whole packets. -/
theorem joinPart_parts (w : Withdrawn) (n a : Nat) (ws : List Withdrawn) (h : ∀ v ∈ ws, v.first = 1) (ha : 1 ≤ a) :
    ((List.range' a (n + 1)).map fun k => { w with first := k, last := k }).foldr joinPart ws =
      { w with first := a, last := a + n } :: ws := by
  induction n generalizing a with
  | zero => simpa using joinPart_of_whole { w with first := a, last := a } ws h ha
  | succ n ih =>
    rw [List.range'_succ, List.map_cons, List.foldr_cons, ih (a + 1) (by omega)]
    simp only [joinPart, List.find?_cons]
    simp [Withdrawn.continues]
    omega

/-- The parts of several packets, all but the first from part 1 on, join into those packets (R164, R165). -/
theorem joinPart_packets (sent : List Withdrawn) (h : ∀ w ∈ sent, 1 ≤ w.first ∧ w.first ≤ w.last)
    (ht : ∀ w ∈ sent.tail, w.first = 1) :
    (sent.flatMap fun w => (List.range' w.first (w.last + 1 - w.first)).map fun k =>
      { w with first := k, last := k }).foldr joinPart [] = sent := by
  induction sent with
  | nil => rfl
  | cons w ws ih =>
    have hw := h w (by simp)
    simp only [List.tail_cons] at ht
    rw [List.flatMap_cons, List.foldr_append,
      ih (fun v hv => h v (by simp [hv])) (fun v hv => ht v (List.mem_of_mem_tail hv)),
      show w.last + 1 - w.first = w.last - w.first + 1 by omega, joinPart_parts w _ _ ws ht hw.1,
      show w.first + (w.last - w.first) = w.last by omega]
end Sys2Proof.Machine
end

