-- ==== Sys2Proof/Tests/Slice0.lean ====
section
/-!
SUPPORT. Tests: the smoke test of well-formedness, worked examples of the manual (each docstring names the table or
section the expected values come from), and, for every statement with hypotheses, a state and operands that meet them.
-/

open Sys2Proof Sys2Proof.Machine

namespace Sys2Proof.Tests

/-! ## Helpers: a station at work -/

/-- The state a command leads to; the state itself if the command stopped. -/
def after (c : Instr) (s : State) : State :=
  match exec c s with
  | .next t => t
  | .fault _ => s
  | .refused _ => s

/-- A setup record in its ranges: till line 2 at ceiling 2, tax rates and cash step of section 5.14. -/
def sampleSetup : SetupRecord :=
  { store := 1, zone := 1, uplink := .yes, enabled := .replicate 8 true
    ceiling := (Vector.replicate 8 0).set 2 2, rates := (Vector.replicate 4 0).set 0 2000 |>.set 1 700, cashStep := 5
    channel := 3, slots := 512, period := 4, guestService := .yes, guestShare := 30, threshold := 5000, winStart := 60
    winEnd := 300, stationAddr := 0x0A000001#32, officeAddr := 0x0B000001#32
    tillNet := { addr := 0x0A010000#32, len := 24 }, guestNet := { addr := 0x0A020000#32, len := 24 }
    officeNet := { addr := 0x0B000000#32, len := 8 }, extra := [], now := none }

/-- Cheese of section 5.14. -/
def cheese : ItemRecord :=
  { code := 2100450000017, dept := 12, unitPrice := 1249, basis := .perKg, taxClass := 1, overrideLevel := 1
    promotion := some (.percentOff 15), labelIndex := some 7, labelClass := some .fast }

/-- Juice of section 5.14. -/
def juice : ItemRecord :=
  { code := 5030700000411, dept := 12, unitPrice := 199, basis := .each, taxClass := 0, overrideLevel := 3
    promotion := some (.multiBuy 3 500), labelIndex := some 100 }

/-- Juice as an ITEM APPEND carries it. -/
def juiceItem : AppendItem := { juice with }

/-- An ACTIVE bank at generation 58 that holds cheese. -/
def activeBank : Bank :=
  { openWord := .good 58, sealWord := .good { count := 1, gen := 58, day := 811, minute := 420 }, activeWord := .good ()
    depts := [(12, some { overrideLevel := 3, openPrice := some 2, taxClass := 0 })], records := [cheese] }

/-- A FILLING bank that intends generation 59 and holds juice. -/
def fillingBank : Bank :=
  { openWord := .good 59, depts := [(12, some { overrideLevel := 3, openPrice := none, taxClass := 0 })]
    records := [juice], labelUse := some [100], lastCode := some 5030700000411 }

/-- A SEALED bank of generation 59, due on day 812 at minute 420. -/
def sealedBank : Bank :=
  { fillingBank with
    sealWord := .good { count := 1, gen := 59, day := 812, minute := 420 }, labelUse := none, lastCode := none }

/-- A PRESENT, cabled peer with its uplink up. -/
def goodPeer : PeerEntry :=
  { state := .present, zone := some 1, gen := 12, age := some 0
    flags := some { setupPresent := true, cabled := true, linkUp := true, journalLow := false, night := false } }

/-- The same with its night session open. -/
def nightPeer : PeerEntry :=
  { goodPeer with
    flags := some { setupPresent := true, cabled := true, linkUp := true, journalLow := false, night := true } }

/-- Station 6, SET and ACTIVE, bank 0 in force, till line 1 signed on at level 2, station 3 on the trunk. -/
def work : State :=
  { stn := 6
    now := 5000
    tp := { trunk := .active, trunkMs := 2000, peers := (Vector.replicate 16 {}).set 3 goodPeer |>.set 6 goodPeer }
    is := { banks := (Vector.replicate 2 {}).set 0 activeBank, gen := 58, selected := some 0, recovered := true }
    bu := { tills := (Vector.replicate 8 {}).set 1 { session := some { cashier := 417, level := 2 } } }
    ju := { recovered := true }
    lrc := { running := true, slots := some 512, period := some 4, labels := [(7, { state := .unchecked, position := some 0, wakeClass := .fast })] }
    fu := { linkUp := true }
    sc := { page := some sampleSetup, clock := some { day := 812, sec := 25200 }, clockState := .peerSet, dayMark := some 812 } }

/-- Till line 1 with another record. -/
def withTill (t : TillRec) (s : State) : State := { s with bu := { s.bu with tills := s.bu.tills.set 1 t } }

/-- Till line 1 with a basket of its own. -/
def withBasket (b : Basket) (s : State) : State :=
  withTill { session := some { cashier := 417, level := 2 }, basket := b } s

/-- Bank 1 with other content. -/
def withBank1 (b : Bank) (s : State) : State := { s with is := { s.is with banks := s.is.banks.set 1 b } }

/-- The line of cheese, 743 g (Table 5-8), and that of juice, quantity 4, at station 3 and generation 12 (Table 5-9). -/
def cheeseLine : Line :=
  scanLine 1 { source := .localBank, owner := 6, gen := 58, item := cheese, level := 1 } (.weight 743)
def juiceLine (number : Nat) (q : Int) : Line :=
  scanLine number { source := .remote, owner := 3, gen := 12, item := juice, level := 3 } (.quantity q)

/-- The basket of section 5.14 after step 2. -/
def basket2 : Basket := ({ held := 3 } : Basket).addLine cheeseLine |>.addLine (juiceLine 2 4)

/-! ## Well-formedness refuses an ill-formed operand of each kind -/

def sampleAnnounce : AnnounceInfo :=
  { zone := 1, setupPresent := true, cabled := true, linkUp := true, gen := 12, journalFree := 65536, journalLow := false
    subnet := some { addr := 0x0A030000#32, len := 24 }, clock := some { day := 812, sec := 25200 }
    clockState := .peerSet, night := false, unreachable := 0 }

def sampleParkHead : ParkHead :=
  { origin := 1, cashier := 417, parked := none, lineCount := 2, held := 3, limit := false, promos := [] }

def samplePacket : Packet := { src := 0x0A010002#32, dst := 0x0B000005#32, len := 501, body := .data [] }

def sampleRelayPart : RelayPart := { origin := .till, k := 1, n := 2, bytes := 500, packet := samplePacket }

theorem test_wf_refuses_a_tag_above_255 :
    (Instr.park 1 255).wellFormed = true ∧ (Instr.park 1 256).wellFormed = false := by decide

theorem test_wf_refuses_announce_fields_out_of_range :
    (Instr.announce 3 sampleAnnounce).wellFormed = true ∧
      (Instr.announce 3 { sampleAnnounce with zone := 64 }).wellFormed = false ∧
      (Instr.announce 3 { sampleAnnounce with journalFree := 65537 }).wellFormed = false ∧
      (Instr.announce 3 { sampleAnnounce with unreachable := 4097 }).wellFormed = false ∧
      (Instr.announce 3 { sampleAnnounce with clock := some { day := 1, sec := 86400 } }).wellFormed = false ∧
      (Instr.announce 3 { sampleAnnounce with subnet := some { addr := 0, len := 33 } }).wellFormed = false := by decide

theorem test_wf_refuses_a_generation_of_33_bits :
    (Instr.priceNotice 3 4294967295).wellFormed = true ∧ (Instr.priceNotice 3 4294967296).wellFormed = false := by decide

theorem test_wf_refuses_a_folded_level_above_3 :
    (Instr.priceAnswer 3 0 12 juice 3).wellFormed = true ∧ (Instr.priceAnswer 3 0 12 juice 4).wellFormed = false := by
  decide

theorem test_wf_refuses_a_park_part_without_its_head :
    (Instr.parkData 3 0 300 { k := 1, n := 2, head := some sampleParkHead, lines := [] }).wellFormed = true ∧
      (Instr.parkData 3 0 300 { k := 1, n := 2, head := none, lines := [] }).wellFormed = false ∧
      (Instr.parkData 3 0 300 { k := 3, n := 2, head := none, lines := [] }).wellFormed = false := by decide

theorem test_wf_refuses_a_relay_part_above_500_bytes :
    (Instr.relay 3 0 sampleRelayPart).wellFormed = true ∧
      (Instr.relay 3 0 { sampleRelayPart with bytes := 501 }).wellFormed = false ∧
      (Instr.relay 3 0 { sampleRelayPart with n := 4 }).wellFormed = false := by decide

theorem test_wf_refuses_a_65th_office_part :
    (Instr.office 3 0 .sessionEnd 64 64).wellFormed = true ∧
      (Instr.office 3 0 .sessionEnd 65 65).wellFormed = false ∧
      (Instr.office 3 0 .sessionEnd 0 1).wellFormed = false := by decide

theorem test_wf_refuses_a_block_of_33_records :
    (Instr.blockAck 3 0 (.journal 0 32)).wellFormed = true ∧ (Instr.blockAck 3 0 (.journal 0 33)).wellFormed = false ∧
      (Instr.headOfficeBlockAck 3 (.activity 256)).wellFormed = false ∧
      (Instr.journalBlockTimerExpiry 0 0).wellFormed = false ∧
      (Instr.activityBlockTimerExpiry 256).wellFormed = false := by decide

theorem test_wf_refuses_an_index_of_17_bits :
    (Instr.readRecords 3 0 0 65535 16).wellFormed = true ∧ (Instr.readRecords 3 0 0 65536 16).wellFormed = false ∧
      (Instr.headOfficeRead 3 0 0 65536 1).wellFormed = false := by decide

theorem test_wf_refuses_an_order_of_17_entries :
    (Instr.itemAppend 0 1 (.replicate 16 juiceItem)).wellFormed = true ∧
      (Instr.itemAppend 0 1 (.replicate 17 juiceItem)).wellFormed = false ∧ (Instr.dept 0 1 []).wellFormed = false := by decide

theorem test_wf_refuses_label_4096 :
    (Instr.labelWake 4095).wellFormed = true ∧ (Instr.labelWake 4096).wellFormed = false ∧
      (Instr.labelAck { checkOk := true, label := 4096, shown := 1, batteryLow := false, displayFault := false }).wellFormed =
        false := by decide

theorem test_wf_refuses_code_fields_out_of_range :
    (Instr.code 1 (.replicate 13 48)).wellFormed = false ∧ (Instr.codeExpiry 10000).wellFormed = false ∧
      (Instr.codeCheck 3 0 { issuer := 6, serial := 10000 }).wellFormed = false ∧
      (Instr.codeCheckReturn 3 0 { issuer := 6, serial := 10000 }).wellFormed = false ∧
      (Instr.codeAnswer 3 0 { issuer := 6, serial := 10000 } .ok).wellFormed = false := by decide

theorem test_wf_refuses_an_accept_time_past_midnight :
    (Instr.sessionAccept { day := 812, sec := 86399 }).wellFormed = true ∧
      (Instr.sessionAccept { day := 812, sec := 86400 }).wellFormed = false := by decide

/-! ## Worked examples of the manual -/

/-- Table 5-3. -/
theorem test_rounded_division_of_table_5_3 :
    [roundDiv 928007 1000, roundDiv 13920 100, roundDiv 1398000 12000, roundDiv (-1398000) 12000, roundDiv 1488 5,
      roundDiv 1487 5, roundDiv (-13920) 100, roundDiv 1485 10] = [928, 139, 117, -117, 298, 297, -139, 149] := by decide

/-- Table 5-8: cheese, 743 g, is answered LINE with total 789, and two records are reserved. -/
theorem test_scan_of_cheese_is_line_1 :
    (after (.scan 1 9 2100450000017 (.weight 743) none) work).out = [.answer 1 9 (.line cheeseLine.work 789 false)] ∧
      (cheeseLine.work.extended, cheeseLine.work.discount, cheeseLine.work.net) = (928, 139, 789) ∧
      (after (.scan 1 9 2100450000017 (.weight 743) none) work).ju.reserved = 2 := by decide

/-- Table 5-9: the amounts and the promotion entry after juice, quantity 4. -/
theorem test_amounts_of_table_5_9 :
    basket2.amounts = some { gross := #v[699, 789, 0, 0], total := 1488 } ∧
      basket2.promos = [{ code := 5030700000411, gen := 12, n := 3, m := 500, price := 199, taxClass := 0, count := 4
                          groups := 1, discount := 97 }] := by decide

/-- Table 5-10. -/
theorem test_subtotal_of_table_5_10 :
    (after (.subtotal 1 9) (withBasket basket2 work)).out =
      [.answer 1 9 (.totals
        { session := some { cashier := 417, level := 2 }, state := .subtotal, lineCount := 2
          amounts := some { gross := #v[699, 789, 0, 0], total := 1488 }, tax := some #v[117, 52, 0, 0], remaining := 1488
          cashDue := 1490, tenders := 0, limit := false })] := by decide

/-- Section 5.14, step 4: CASH 2,000 closes with change 510 and hands two LINE records and a SALE record. -/
theorem test_cash_tender_closes_with_change_510 :
    planTender .cash 2000 1488 5 = { applied := 1488, change := 510, rounding := 2, closes := true } ∧
      ((after (.tender 1 9 .cash 2000) (withBasket basket2 work)).ju.queue.map fun g => g.bodies.length) = [3] ∧
      (after (.tender 1 9 .cash 2000) (withBasket basket2 work)).bu.tills[1].closing.map CloseInfo.paid = some 510 := by
  decide

/-- Tables 5-11 and 5-12: the void of line 2, then lines of quantity 3 and -1. -/
theorem test_void_and_return_of_section_5_15 :
    (basket2.voidLine (juiceLine 2 4).work).amounts = some { gross := #v[0, 789, 0, 0], total := 789 } ∧
      (basket2.voidLine (juiceLine 2 4).work).promos = [] ∧
      ((basket2.voidLine (juiceLine 2 4).work).addLine (juiceLine 3 3)).amounts =
        some { gross := #v[500, 789, 0, 0], total := 1289 } ∧
      (((basket2.voidLine (juiceLine 2 4).work).addLine (juiceLine 3 3)).addLine (juiceLine 4 (-1))).amounts =
        some { gross := #v[398, 789, 0, 0], total := 1187 } := by decide

/-- Section 5.15, step 1: VOID LINE 2 is answered with the new total, and the basket is OPEN again. -/
theorem test_void_line_2_is_answered :
    (after (.voidLine 1 9 2) (withBasket { basket2 with state := .subtotal } work)).bu.tills[1].basket.state = .opened ∧
      (after (.voidLine 1 9 2) (withBasket { basket2 with state := .subtotal } work)).out =
        [.answer 1 9 (.line { (juiceLine 2 4).work with voided := true } 789 false)] := by decide

/-- Table 5-6. -/
theorem test_tax_content_of_table_5_6 :
    taxContent #v[699, 698, -699, 398] #v[2000, 2000, 2000, 2000] = #v[117, 116, -117, 66] := by decide

/-- Section 5.16: a clamp, and a small cash remainder. -/
theorem test_edges_of_section_5_16 :
    (scanLine 1 { source := .localBank, owner := 6, gen := 58, level := 3, item :=
        { code := 9000000000019, dept := 12, unitPrice := 9999999, basis := .perKg, taxClass := 0, overrideLevel := 3 } }
      (.weight 30000)).work.extended = 99999999 ∧
      planTender .cash 5 2 5 = { applied := 2, change := 5, rounding := -2, closes := true } := by decide

/-- Table 5-7. -/
theorem test_comparison_prices_of_table_5_7 :
    [(249, 400), (129, 330), (1899, 1), (9999999, 1)].map (fun p =>
        ({ juice with unitPrice := p.1, packSize := some p.2 } : ItemRecord).comparison) =
      [some 623, some 391, some 1899000, some 9999999] := by decide

/-- Table 4-9, steps 3 and 4: KEY at level 2's lane without and with a claim that meets the open-price level. -/
theorem test_key_is_refused_by_level :
    (after (.key 2 9 12 120 1 (some 3)) { work with bu := { work.bu with tills := (work.bu.tills.set 2
      { session := some { cashier := 417, level := 3 } }) } }).out = [.answer 2 9 (.refused .level)] ∧
      (after (.key 2 9 12 120 1 (some 1)) { work with bu := { work.bu with tills := (work.bu.tills.set 2
        { session := some { cashier := 417, level := 3 } }) } }).bu.tills[2].basket.lines.length = 1 := by decide

/-- Table 4-9, step 6: PARK in slot 0 of station 9 is ticket 0900. -/
theorem test_park_is_ticket_0900 :
    (after (.park 1 9) (withBasket basket2 { work with stn := 9 })).out = [.answer 1 9 (.parked 900)] ∧
      (after (.park 1 9) (withBasket basket2 { work with stn := 9 })).bu.park[0].held = 3 := by decide

/-- Section 3.7, step 1: tag 32 x 3 + 11 = 107 on entry 3. -/
theorem test_query_takes_tag_107 :
    (after (.scan 3 9 4006100000215 (.quantity 1) none)
      { work with
        bu := { tills := (Vector.replicate 8 {}).set 3 { session := some { cashier := 1, level := 2 } } }
        lu := { queries := (Vector.replicate 8 {}).set 3 { seq := 10 } } }).tp.qB =
      [queryFrame 107 4006100000215 .sale] ∧ setOf 4006100000215 = 23 := by decide

/-- The cache set of Table 3-6, and a query of entry 1 (tag 33) for juice; station 3 stands at generation 12. -/
def asking : State :=
  { withTill { session := some { cashier := 417, level := 2 }, outstanding := some { tag := 9, kind := .scan, wait := .lookup }
               scan := some { code := 5030700000411, measure := some (.quantity 4) } } work with
    lu := { queries := ((Vector.replicate 8 {}).set 1
      { state := .try1, code := 5030700000411, tag := 33, ms := 20, seq := 1 }) } }

/-- Table 3-7: an answer below the recorded generation is stale and the query is sent again as TRY 2. -/
theorem test_stale_answer_is_asked_again :
    (after (.priceAnswer 3 33 11 juice 3) asking).lu.queries[1].state = .try2 ∧
      (after (.priceAnswer 3 33 11 juice 3) asking).tp.qB = [queryFrame 33 5030700000411 .sale] ∧
      (after (.priceAnswer 3 33 11 juice 3) asking).out = [] := by decide

/-- Table 3-8: a usable answer frees the entry, fills the cache and adds the line; a later PRICE NOTICE clears it. -/
theorem test_usable_answer_fills_the_cache :
    (after (.priceAnswer 3 33 12 juice 3) asking).lu.queries[1].state = .free ∧
      ((after (.priceAnswer 3 33 12 juice 3) asking).lu.cache[setOf 5030700000411].way0.map CacheEntry.gen) = some 12 ∧
      ((after (.priceAnswer 3 33 12 juice 3) asking).bu.tills[1].basket.lines.map fun l => l.net) = [796] ∧
      (after (.priceNotice 3 13) (after (.priceAnswer 3 33 12 juice 3) asking)).lu.cache[setOf 5030700000411].way0 =
        none := by decide

/-- Section 1.9, step 4: an ITEM APPEND stops at a repeated code. -/
theorem test_append_stops_out_of_order :
    let next : AppendItem := { juiceItem with code := 5030700000412, labelIndex := none }
    let r := fillingBank.runAppend 58 [next, next] 0
    (r.1.records.length, r.2) = (2, 1, .outOfOrder) := by decide

/-- R3, R11: a basis, promotion kind or label class outside Table 1-2 is BAD-RECORD, before any other reason. -/
theorem test_append_refuses_an_unknown_choice :
    [{ juiceItem with basisOk := false }, { juiceItem with promotionOk := false },
      { juiceItem with classOk := false }].map fillingBank.refuses = List.replicate 3 (some .badRecord) := by decide

/-- Table 1-8: SEAL of a whole bank writes the next generation. -/
theorem test_seal_writes_generation_59 :
    ((after (.sealBank 4 1 1 812 480) (withBank1 fillingBank work)).is.bank 1).sealWord =
      .good { count := 1, gen := 59, day := 812, minute := 480 } := by decide

/-- Table 1-9: the switchover at minute 420 of day 812. -/
theorem test_switchover_of_table_1_9 :
    let t := after .switchover { withBank1 sealedBank work with is := { (withBank1 sealedBank work).is with accessed := [0] } }
    (t.is.gen, t.is.selected, t.is.lostSnapshots, t.is.accessed, t.is.activity) = (59, some 1, 1, [], []) ∧
      ((t.is.bank 0).state, (t.is.bank 1).state) = (.retired, .active) ∧
      t.tp.qA = [{ dest := .broadcast, tag := 0, payload := .priceNotice 59 }] := by decide

/-- R14: of two SEALED banks the one whose effective time is reached is put in force, whichever its number. -/
theorem test_switchover_finds_the_due_bank :
    (after .switchover (withBank1 sealedBank { work with is := { work.is with banks := (.replicate 2
      { sealedBank with sealWord := .good { count := 1, gen := 59, day := 813, minute := 0 } }) } })).is.selected =
      some 1 := by decide

/-- Section 1.9, variant: of two ACTIVE banks the one of the higher generation is taken at recovery. -/
theorem test_recovery_takes_the_higher_generation :
    let s := withBank1 { sealedBank with activeWord := .good () }
      { work with is := { work.is with selected := none, gen := 0, recovered := false } }
    ((after .itemStoreRecovery s).is.selected, (after .itemStoreRecovery s).is.gen,
      ((after .itemStoreRecovery s).is.bank 0).state) = (some 1, 59, .retired) := by decide

/-- Section 1.9, step 1: day roll merges ACCESSED into ACTIVITY. -/
theorem test_day_roll_merges_the_flags :
    let t := after .dayRoll { work with
      is := { work.is with accessed := [17, 240, 1033] }, sc := { work.sc with dayMark := some 811 } }
    (t.is.accessed, t.is.activity, t.sc.dayMark) = ([], [17, 240, 1033], some 812) := by decide

/-- Table 2-11: a frame of the own number in LISTEN begins the 60 s hold, and the hold's end the 10 s listen. -/
theorem test_duplicate_of_table_2_11 :
    (fun t : TrunkPort => (t.trunk, t.trunkMs)) (after .ownNumberFrame State.reset).tp = (.dupHold, 60000) ∧
      (fun t : TrunkPort => (t.trunk, t.trunkMs))
        (after .duplicateHoldEnd { State.reset with tp := { trunk := .dupHold } }).tp = (.dupListen, 10000) := by
  decide +kernel

/-- Table 7-7: the verdicts of the walk for labels 7 (price changed), 1,300 (not carried) and 100 (newly carried). -/
theorem test_verdicts_of_table_7_7 :
    let old : Bank := { activeBank with records := [cheese] }
    let new : Bank := { sealedBank with records := [{ cheese with unitPrice := 219 }, juice] }
    let e : LabelEntry := { state := .review, position := some 0, wakeClass := .fast, confirmed := some 58, shown := some 58 }
    (e.verdict (verdictOf (some old) new 7 e) (some 58) 59).state = .stale ∧
      (e.verdict (verdictOf (some old) new 7 e) (some 58) 59).shown = some 58 ∧
      (e.verdict (verdictOf (some old) new 1300 e) (some 58) 59).blankPending = true ∧
      (({} : LabelEntry).verdict (verdictOf (some old) new 100 {}) (some 58) 59).position = some 1 := by decide +kernel

/-- Section 7.8, step 3: label 7, STALE and FAST, is sent its content under the generation in force, on channel 3. -/
theorem test_stale_label_is_sent_display :
    (after (.labelWake 7) { work with lrc := { work.lrc with
      labels := [(7, { state := .stale, position := some 0, wakeClass := .fast })] } }).out =
      [.label 3 (.display 7 58 (some cheese.content))] := by decide

/-- R125: label 519 of 512 slots has position 1 of slot 7, 2.5 ms after label 7's; a place once passed wakes no more. -/
theorem test_places_of_labels :
    labelPlace 512 7 = 56 ∧ labelPlace 512 519 = 57 ∧ positionAt 0 = some 0 ∧ positionAt 1 = none ∧
      positionAt 2 = some 1 ∧ positionAt 17 = some 7 ∧
      (after (.labelWake 7) { work with lrc := { work.lrc with placed := some 56 } }).out = [] ∧
      (after (.labelWake 7) { work with lrc := { work.lrc with placed := some 55 } }).out = [.label 3 (.ping 7 none)] := by
  decide

/-- Section 7.8, step 5: a blank acknowledged leaves the label UNBOUND. -/
theorem test_blank_acknowledged_is_unbound :
    ((after (.labelAck { checkOk := true, label := 7, shown := 58, batteryLow := false, displayFault := false })
      { work with lrc := { work.lrc with
        labels := [(7, { state := .stale, blankPending := true, stayFast := 2 })]
        exchange := some { label := 7, display := true, blank := true, gen := 58 } } }).lrc.label 7).state = .unbound := by
  decide

/-- Table 8-6: the counts when a page's erase completes. -/
theorem test_page_erase_of_table_8_6 :
    let t := after .journalPageEraseComplete { work with
      ju := { recovered := true, used := 48429, reserved := 32, free := 16819, erasing := some { page := 10, ms := 0 }
              oldest := 2816, head := 2842, cend := 51245, tailPos := 51245, readPos := 2842 } }
    (t.ju.used, t.ju.reserved, t.ju.free, t.ju.erasing) = (48429, 32, 17075, none) := by decide +kernel

/-- Section 10.7, step 1: a total of 6,420 at threshold 5,000 issues serial 1,207, and the counter moves on. -/
theorem test_code_031207_is_issued :
    (({ serial := 1207 } : GuestUnit).issue 5000 6420 none 4).1 = some 1207 ∧
      (({ serial := 1207 } : GuestUnit).issue 5000 6420 none 4).2.serial = 1208 ∧
      readCode [48, 51, 49, 50, 48, 55] = some { issuer := 3, serial := 1207 } := by decide

/-- Station 9 of section 10.7, its client in entry 12. -/
def joined : State :=
  { work with
    stn := 9
    gu := { clients := (Vector.replicate 128 {}).set 12 { state := .opened, addr := 77, parity := true } } }

/-- Table 10-5: the check of entry 12 takes tag 24 and 50 ms. -/
theorem test_code_check_takes_tag_24 :
    (after (.code 77 [48, 51, 49, 50, 48, 55]) joined).tp.qB =
      [frameTo 3 24 (.codeCheck .check { issuer := 3, serial := 1207 })] ∧
      (after (.code 77 [48, 51, 49, 50, 48, 55]) joined).gu.clients[12].check =
        some { issuer := 3, tag := 24, ms := 50 } := by decide

/-- Table 10-5: the OK of tag 24 admits for 120 minutes. -/
theorem test_code_answer_admits :
    (after (.codeAnswer 3 24 { issuer := 3, serial := 1207 } .ok)
      (after (.code 77 [48, 51, 49, 50, 48, 55]) joined)).gu.clients[12].admissionMs = 7200000 ∧
      (after (.codeAnswer 3 24 { issuer := 3, serial := 1207 } .ok)
        (after (.code 77 [48, 51, 49, 50, 48, 55]) joined)).out = [.air (.codeResult 77 (.admitted 120))] := by decide +kernel

/-- Section 2.8: the CRC of no bytes is its initial value; a frame with its check is good, and with a bit changed not. -/
theorem test_frame_with_its_check_is_good :
    crc16 [] = 0xFFFF#16 ∧
      RawFrame.good { bytes := frameBytes 6 2 3 255 107 [1, 2], origin := none } = true ∧
      RawFrame.good { bytes := frameBytes 6 1 3 255 107 [1, 2], origin := none } = false ∧
      RawFrame.good { bytes := (frameBytes 6 2 3 255 107 [1, 2]).set 6 3, origin := none } = false := by decide +kernel

/-- R169, R202: a window's credit at 10 Mbit/s and a share of 30 percent. -/
theorem test_guest_credit_of_a_window : (after .guestCreditWindow work).fu.credit = 37500 := by decide

/-- Section 12.1: the first field out of range is named. -/
theorem test_bad_setup_names_the_first_field :
    (after (.setup 3 5 { sampleSetup with cashStep := 3, store := 65536 })
      { work with sc := { work.sc with page := none } }).tp.qA =
      [frameTo 3 5 (.setupAnswer (.badSetup .store))] := by decide

/-- The table gives no row any bits, so no word spells a command. -/
theorem test_no_word_spells_a_command (nbits w : Nat) : decodeTableWord nbits w = none := rfl

/-- State.reset holds no command, and idles: 1 ms passes. -/
theorem test_reset_idles : (State.reset.idle).now = 1 ∧ (State.reset.idle).tp.trunkMs = 999 := by decide

/-! ## A state and operands for every statement with hypotheses

Each theorem lists, clause by clause, the hypotheses of the statement it is named after, met by one concrete state and
operands. -/

def fA : Frame := frameTo 3 5 (.setupAnswer .done)
def fB : Frame := frameTo 3 5 (.release 300)
def fC : Frame := frameTo 3 5 (.records [])
def fGuest : Frame := relayFrame 3 5 .guest samplePacket 1
def fAnnounce : Frame := { dest := .broadcast, tag := 0, payload := .announce sampleAnnounce }

/-- A trunk port in place of the sample's. -/
def withTp (t : TrunkPort) (s : State) : State := { s with tp := t }

/-- The sample with the trunk port in another state. -/
def onTrunk (x : TrunkState) : State := withTp { work.tp with trunk := x } work

/-- The sample with 16 frames in the B queue. -/
def fullB (s : State) : State := withTp { s.tp with qB := .replicate 16 fB } s

theorem witness_StepRunsTheFrontCommand :
    ({ work with pending := [.listenEnd, .park 1 9] } : State).pending = .listenEnd :: [.park 1 9] := rfl

theorem witness_TimePassesOnAnEmptyQueue :
    let keep : State := { work with deferred := [.ack (.activity 1), .addLine 1 9 cheeseLine] }
    (work.pending = [] ∧ work.deferred = [] ∧ 1 < work.tp.trunkMs ∧ work.sc.clockState ≠ .unset ∧ work.sc.clockMs < 999) ∧
      (State.reset.pending = [] ∧ State.reset.deferred = [] ∧ State.reset.sc.clockState = .unset) ∧
      999 ≤ ({ work.sc with clockMs := 999 } : StationControl).clockMs ∧
      ({ keep with ju := {} } : State).deferred.all (fun w => !w.ready { keep with ju := {} }) = true ∧
      (keep.deferred = [] ++ Waiting.ack (.activity 1) :: [.addLine 1 9 cheeseLine] ∧
        (Waiting.ack (.activity 1)).ready keep = true) ∧
      (work.lrc.running = true ∧ 512 = work.lrc.slots.getD 512 ∧ 10238 + 2 = 512 * 20 ∧ 2 % 20 = 5 * 1 / 2 ∧
        10223 + 17 = 512 * 20 ∧ 17 % 20 = 5 * 7 / 2) := by decide

/-- A place's start: at 7 x 20 ms of the cycle label 7 wakes; at 2 ms more label 519 would. -/
theorem test_label_7_wakes_in_slot_7 :
    ({ work with lrc := { work.lrc with cycleMs := 10100 } } : State).due = [.labelWake 7] ∧
      ({ work with lrc := { work.lrc with cycleMs := 10098 } } : State).due = [] := by decide

theorem witness_HandOverPlacesOrRefuses :
    let t := work.tp
    (fB.frameClass = .b ∧ t.trunk = .active ∧ t.qB.length < 16 ∧ ¬(fullB work).tp.qB.length < 16) ∧
      (fC.frameClass = .c ∧ t.qC.length < 32) ∧
      (fGuest.frameClass = .c ∧ fGuest.isGuestRelay = true ∧ fC.isGuestRelay = false ∧
        32 ≤ (List.replicate 32 fC).length) ∧
      (fB.frameClass ≠ .a ∧ fC.frameClass ≠ .a ∧ (onTrunk .listening).tp.trunk ≠ .active) ∧
      (fA.frameClass = .a ∧ (onTrunk .dupHold).tp.trunk.isDuplicate = true) ∧
      (t.trunk.isDuplicate = false ∧ fA.isAnnounce = false ∧ fAnnounce.frameClass = .a ∧ fAnnounce.isAnnounce = true) ∧
      [fA].any Frame.isAnnounce = false ∧ ([] : List Frame).any Frame.isAnnounce = false ∧
      ({ t with qA := [fA, fAnnounce] } : TrunkPort).qA = [fA] ++ fAnnounce :: [] ∧
      ({ t with qA := .replicate 8 fA, keptA := [fA, fAnnounce] } : TrunkPort).qA.any Frame.isAnnounce = false := by decide

theorem witness_ContentionStartsTheOldestOfTheHighestClass :
    let s (qA qB qC : List Frame) := withTp { work.tp with qA := qA, qB := qB, qC := qC } work
    (work.tp.trunk = .active ∧ work.tp.sending = none ∧ work.tp.roundLeft = false ∧
        ({ work.tp with roundLeft := true } : TrunkPort).roundLeft = true) ∧ (s [fA] [] []).tp.qA = fA :: [] ∧
      ((s [] [fB] []).tp.qA = [] ∧ (s [] [fB] []).tp.qB = fB :: []) ∧
      ((s [] [] [fC]).tp.qA = [] ∧ (s [] [] [fC]).tp.qB = [] ∧ (s [] [] [fC]).tp.qC = fC :: []) ∧
      (3 : Station) ≠ work.stn := by decide

/-- R36: after entry to ACTIVE the ANNOUNCE does not start in the round in progress, and starts in the next one. -/
theorem test_entry_to_active_waits_for_a_round :
    (after (.contentionSlot .a false) (after .listenEnd State.reset)).tp.sending = none ∧
      (after (.contentionSlot .a false) (after .contentionRoundEnd (after .listenEnd State.reset))).tp.sending.isSome =
        true := by decide +kernel

theorem witness_FramesAreSentOrCollide :
    let s (qA qB qC : List Frame) (f : Frame) (m : Option Nat) :=
      withTp { work.tp with qA := qA, qB := qB, qC := qC, sending := some f, lastGarble := m } work
    ((s [fA] [] [] fA none).tp.sending = some fA ∧ fA.frameClass = .a ∧ (s [fA] [] [] fA none).tp.qA = fA :: []) ∧
      (fB.frameClass = .b ∧ (s [] [fB] [] fB none).tp.qB = fB :: []) ∧
      (fC.frameClass = .c ∧ (s [] [] [fC] fC none).tp.qC = fC :: []) ∧
      ((s [] [fB] [] fB (some 3999)).tp.lastGarble = some 3999 ∧ 3999 + 1000 < (s [] [fB] [] fB (some 3999)).now) ∧
      ((s [] [fB] [] fB (some 4000)).tp.lastGarble = some 4000 ∧ (s [] [fB] [] fB (some 4000)).now ≤ 4000 + 1000 ∧
        (s [] [fB] [] fB (some 4000)).tp.trunk = .active) := by
  decide

/-- A frame of every kind of error, and one without. -/
theorem witness_BadFramesAreCounted :
    checkOk (frameBytes 6 2 3 255 107 [1, 2]) = true ∧ 8 ≤ (frameBytes 6 2 3 255 107 [1, 2]).length ∧
      natOfBytes (((frameBytes 6 2 3 255 107 [1, 2]).drop 4).take 2) + 8 = (frameBytes 6 2 3 255 107 [1, 2]).length ∧
      natOfBytes (((frameBytes 6 2 3 255 107 [1, 2]).drop 4).take 2) ≤ 512 ∧
      512 < natOfBytes (((List.replicate 8 255 : List Byte).drop 4).take 2) ∧
      (byteAt (frameBytes 6 2 3 255 107 [1, 2]) 2 = 255 ∧ byteAt (frameBytes 6 2 3 255 107 [1, 2]) 0 = 6 ∧
        byteAt (frameBytes 6 2 3 255 107 [1, 2]) 1 / 16 = 2) ∧
      (byteAt (frameBytes 14 3 3 5 107 [1]) 0 = 14 ∧ byteAt (frameBytes 14 3 3 5 107 [1]) 1 / 16 = 3) ∧
      (byteAt (frameBytes 1 1 3 255 0 []) 0 = 1 ∧ byteAt (frameBytes 1 1 3 255 0 []) 1 / 16 = 1) ∧
      (byteAt (frameBytes 18 3 3 15 0 []) 0 = 18 ∧ byteAt (frameBytes 18 3 3 15 0 []) 1 / 16 = 3 ∧
        byteAt (frameBytes 18 3 3 15 0 []) 2 = 15) ∧
      (18 < byteAt (frameBytes 19 3 3 15 0 []) 0 ∧ 15 < byteAt (frameBytes 6 2 3 16 0 []) 2 ∧
        byteAt (frameBytes 6 2 3 16 0 []) 2 ≠ 255) ∧
      ([1, 2] : List Byte).length < 8 := by decide +kernel

/-- An office packet of two parts for station 3 under tag 5 and its part k; a message of three parts for it under tag 7. -/
def officePart (k : Nat) : Frame := relayFrame 3 5 .office samplePacket k
def message3 (next : Nat) : SendEntry := { msg := .records 3 5 [], dest := 3, tag := 7, n := 3, next := next }
def block1 : SendEntry := { msg := .activityBlock 6 1 58 [2100450000017], dest := 3, tag := 8, n := 1, next := 1 }

/-- Something of every block: till 1 waits on a query, till 2 on a recall, till 3's RECALL on the journal's recovery;
client 12 on a code check; own code 1207 was used; the frames of each block wait in the queues. -/
def crowded : State :=
  let waiting (kind : ReqKind) (w : Wait) : TillRec :=
    { session := some { cashier := 417, level := 2 }, outstanding := some { tag := 9, kind := kind, wait := w }
      basket := { state := if w = .lookup then .empty else .recalling } }
  let frames : List Frame :=
    [frameTo 3 1 (.releaseAnswer 600 .released), frameTo 3 2 (.codeAnswer { issuer := 6, serial := 1207 } .ok),
      frameTo 3 3 (.codeCheck .giveBack { issuer := 3, serial := 44 }), relayFrame 5 4 .till samplePacket 1,
      relayFrame 5 4 .till samplePacket 2]
  { work with
    tp := { work.tp with qB := frames, qC := [officePart 1, officePart 2, (message3 1).frame, (message3 2).frame, fC] }
    lu := { queries := (Vector.replicate 8 {}).set 1 { state := .try1, code := 5030700000411, tag := 33, ms := 20, seq := 1 } }
    bu := { work.bu with
      tills := (work.bu.tills.set 1 { waiting .scan .lookup with
        scan := some { code := 5030700000411, measure := some (.quantity 4) } }).set 2 (waiting .recall .recall) |>.set 3
        (waiting .recall .recovery)
      recalls := (Vector.replicate 8 {}).set 2
        { phase := .asking, ticket := 304, owner := 3, tag := 65, reserved := 65, ms := 150, seq := 1 } }
    ju := { recovered := true, reserved := 65, free := 65471 }
    gu := { clients := (Vector.replicate 128 {}).set 12
              { state := .checking, addr := 77, code := some { issuer := 3, serial := 1207 }
                check := some { issuer := 3, tag := 24, ms := 50 } }
            codes := [{ serial := 1207, uses := 2, validMs := 1000, issued := none, till := 4 }] }
    nlc := { carrier := some 3, sendList := [message3 3, block1] }
    deferred := [.recall 3 9 304 3] }

/-- R38, R61, R75, R85, R119, R164, R165, R182, R200, R201, R206: what entry to DUPLICATE does to each block. -/
theorem test_entry_to_duplicate_tells_every_block :
    let t := after .ownNumberFrame crowded
    (t.out = [1, 2, 3].map (fun k => .answer k 9 (.refused .noTrunk)) ++ [.air (.codeResult 77 .retry)] ∧
        [1, 2, 3].all (fun k => decide (t.bu.tills[(k : TillNo)].basket.state = .empty)) = true ∧ t.deferred = []) ∧
      (t.ju.reserved, t.ju.free, t.bu.lostTransfers, t.gu.notReturned, t.fu.droppedTill) = (0, 65536, 1, 1, 1) ∧
      (t.gu.codes.map CodeEntry.uses = [1] ∧ t.gu.clients[12].state = .opened ∧
        t.gu.airSending = some (.codeResult 77 .retry)) ∧
      t.fu.officePending = [{ packet := samplePacket, dest := 3, tag := 5, next := 1 }] ∧
      (t.nlc.sendList, t.sc.pendingRecords) = ([message3 1], [fC]) ∧ t.fu.droppedOffice = 0 := by decide +kernel

/-- R165, R201: a packet withdrawn from its second part on is dropped and counted; one pending begins anew. -/
theorem test_withdrawn_office_parts :
    let t (qC : List Frame) (l : List OfficePending) := (after .ownNumberFrame { crowded with
      tp := { crowded.tp with qC := qC }, fu := { crowded.fu with officePending := l } }).fu
    let entry (n : Nat) : OfficePending := { packet := samplePacket, dest := 3, tag := 5, next := n }
    ((t [officePart 2] []).officePending, (t [officePart 2] []).droppedOffice) = ([], 1) ∧
      ((t [officePart 1] [entry 2]).officePending, (t [officePart 1] [entry 2]).droppedOffice) = ([entry 1], 0) := by
  decide +kernel

/-- R164, R165: two packets of one station and relay number are two: a TILL packet of one part and one of two are
counted twice, and two OFFICE packets wait both. A packet pending to the own number is dropped. -/
theorem test_packets_of_one_relay_number_are_told_apart :
    let other : Packet := { samplePacket with len := 400 }
    let t (qB qC : List Frame) (l : List OfficePending) := (after .ownNumberFrame { crowded with
      tp := { crowded.tp with qB := qB, qC := qC, peers := crowded.tp.peers.set 6 { goodPeer with state := .present } }
      fu := { crowded.fu with officePending := l } }).fu
    let u := t [relayFrame 5 4 .till other 1, relayFrame 5 4 .till samplePacket 1, relayFrame 5 4 .till samplePacket 2]
      [officePart 1, relayFrame 3 5 .office other 1, officePart 2]
      [{ packet := samplePacket, dest := 6, tag := 9, next := 1 }]
    (u.droppedTill, u.officePending.map OfficePending.packet, u.droppedOffice) = (2, [samplePacket, other], 1) := by
  decide +kernel

theorem witness_OwnNumberBeginsAndHoldsDuplicate_blocks :
    let x := crowded
    (x.tp.sending = none ∧ x.tp.trunk = .active ∧ x.gu.airSending = none ∧
        ({ x.gu with airSending := some .restart } : GuestUnit).airSending ≠ none) ∧
      (x.bu.tills[1].outstanding = some { tag := 9, kind := .scan, wait := .lookup } ∧ x.lu.queries[1].state ≠ .free ∧
        x.bu.tills[1].scan ≠ none ∧ x.bu.recalls[1].phase = .idle ∧ x.deferred.any (Waiting.isRecall 1) = false) ∧
      (x.bu.tills[2].outstanding = some { tag := 9, kind := .recall, wait := .recall } ∧ x.lu.queries[2].state = .free ∧
        x.bu.recalls[2].phase ≠ .idle ∧ x.deferred.any (Waiting.isRecall 3) = true ∧ x.lu.queries[3].state = .free) ∧
      (x.lu.queries[0].state = .free ∧ x.bu.recalls[0].phase = .idle ∧ x.deferred.any (Waiting.isRecall 0) = false) ∧
      (∀ k : TillNo, x.bu.recalls[k].phase = .idle → x.bu.recalls[k].reserved = 0) ∧
      ((work.tp.qC.filter fun f => decide (f.owner = some .forward)) = [] ∧
        (x.tp.qC.filter fun f => decide (f.owner = some .forward)) = [({ dest := 3, tag := 5, origin := .office
                                                                         packet := samplePacket, first := 1
                                                                         last := 2 } : Withdrawn)].flatMap (fun w =>
          (List.range' w.first (w.last + 1 - w.first)).map (relayFrame w.dest w.tag .office w.packet)) ∧
        x.fu.officePending = [] ∧ (3 : Station) ≠ x.stn) ∧
      (x.nlc.carrier = some 3 ∧ x.judge = some 3 ∧ (3 : Station) ≠ x.stn ∧ (message3 1).msg.isBlock = false ∧
        x.tp.qC.filterMap Frame.nightPart = (List.range' 1 2).map (fun i => { message3 1 with next := i }) ∧
        x.nlc.sendList = { message3 1 with next := 1 + 2 } :: [block1] ∧ block1.msg ≠ (message3 1).msg) ∧
      (work.nlc.upload ≠ .uploading ∧
        ({ work.nlc with upload := .uploading, carrier := some 6 } : NightLink).upload = .uploading) ∧
      (({ work.nlc with carrier := some 6 } : NightLink).carrier = some work.stn ∧
        work.tp.peers[work.stn].state ≠ .absent) := by decide +kernel

theorem witness_OwnNumberBeginsAndHoldsDuplicate_counters :
    crowded.counters.Within ∧
      crowded.tp.qB.filter Frame.isTillRelay =
        [({ dest := 5, tag := 4, origin := .till, packet := samplePacket, first := 1, last := 2 } : Withdrawn)].flatMap
          (fun w => (List.range' w.first (w.last + 1 - w.first)).map (relayFrame w.dest w.tag .till w.packet)) := by
  unfold Counters.Within; decide +kernel

theorem witness_OwnNumberBeginsAndHoldsDuplicate :
    (work.tp.sending = none ∧ work.tp.trunk = .active) ∧ (State.reset.tp.sending = none ∧ State.reset.tp.trunk = .listening) ∧
      (onTrunk .dupHold).tp.trunk = .dupHold ∧
      ((onTrunk .dupListen).tp.trunk = .dupListen ∧ (onTrunk .dupListen).tp.sending = none) ∧
      (withTp { work.tp with qA := [fA], sending := some fA } work).tp.sending = some fA := by decide

theorem witness_AnnounceIsFormedInActive :
    State.reset.tp.trunk = .listening ∧ (onTrunk .dupListen).tp.trunk = .dupListen ∧ work.tp.trunk = .active := by decide

theorem witness_PeerEntriesFollowAnnouncesAndAge :
    ((3 : Station) ≠ work.stn ∧ sampleAnnounce.clock = some { day := 812, sec := 25200 } ∧
        sampleAnnounce.clockState ≠ .unset ∧ State.reset.sc.clockState.rank < sampleAnnounce.clockState.rank) ∧
      ((.officeSet : ClockState).rank ≤ ({ work.sc with clockState := .officeSet } : StationControl).clockState.rank ∧
        work.sc.clock = some { day := 812, sec := 25200 } ∧ 812 * 86400 + 25200 + 1 < 812 * 86400 + 25202) ∧
      (sampleAnnounce.clockState.rank ≤ work.sc.clockState.rank ∧ sampleAnnounce.clockState ≠ .officeSet) ∧
      (∀ sec ∈ [25199, 25200, 25201],
        812 * 86400 + 25200 ≤ 812 * 86400 + sec + 1 ∧ 812 * 86400 + sec ≤ 812 * 86400 + 25200 + 1) ∧
      (3 : Station) ≠ State.reset.stn ∧ work.tp.peers[3].state = .present ∧ work.tp.peers[3].gen < 13 ∧
      (withTp { work.tp with peers := work.tp.peers.set 3 { goodPeer with state := .stale } } work).tp.peers[3].state =
        .stale := by decide

/-- R205: of two OFFICE-SET clocks a difference of 1 s is left and one of 2 s is adopted. -/
theorem test_clock_adoption_at_one_and_two_seconds :
    let s : State := { work with sc := { work.sc with clockState := .officeSet } }
    let heard (sec : Nat) := (after (.announce 3 { sampleAnnounce with
      clock := some { day := 812, sec := sec }, clockState := .officeSet }) s).sc.clock
    [25198, 25199, 25201, 25202].map heard =
      [25198, 25200, 25200, 25202].map fun x => some { day := 812, sec := x } := by decide

/-- R189, R205: a clock that leaves UNSET sets the day mark to the day whose window start, second 3,600, it has reached. -/
theorem test_adopted_clock_sets_the_day_mark :
    let s : State := { work with sc := { page := some sampleSetup } }
    [3599, 3600].map (fun sec => (after (.announce 3 { sampleAnnounce with clock := some { day := 812, sec := sec } }) s).sc.dayMark) =
      [some 811, some 812] := by decide

/-- Station 3 STALE, no carrier: till 2's recall, client 12's check and a pending OFFICE packet are all for station 3. -/
def absentee : State :=
  { crowded with
    tp := { crowded.tp with
      peers := (Vector.replicate 16 {}).set 3 { goodPeer with state := .stale } |>.set 6 { state := .present, gen := 58 } }
    fu := { officePending := [{ packet := samplePacket, dest := 3, tag := 5, next := 2 }] }, nlc := {} }

/-- R119, R165, R182: what waits on a station that becomes ABSENT. -/
theorem test_absent_peer_ends_what_waits_on_it :
    let t := after (.peerAbsent 3) absentee
    (.answer 2 9 (.refused .recallFailed) ∈ t.out ∧ .air (.codeResult 77 .retry) ∈ t.out ∧ t.bu.tills[2].basket.state = .empty ∧
        t.bu.tills[1].outstanding = some { tag := 9, kind := .scan, wait := .lookup }) ∧
      (t.ju.reserved, t.fu.officePending, t.fu.droppedOffice) = (0, [], 1) ∧ t.gu.clients[12].state = .opened := by
  decide +kernel

theorem witness_PeerEntriesFollowAnnouncesAndAge_absent :
    (absentee.tp.peers[3].state = .stale ∧ (3 : Station) ≠ absentee.stn ∧ absentee.bu.recalls[2].phase ≠ .idle ∧
        absentee.bu.recalls[2].owner = 3 ∧
        absentee.bu.tills[2].outstanding = some { tag := 9, kind := .recall, wait := .recall }) ∧
      (absentee.gu.clients[12].state = .checking ∧
        absentee.gu.clients[12].check = some { issuer := 3, tag := 24, ms := 50 }) ∧
      (absentee.judge = absentee.nlc.carrier ∧ absentee.nlc.carrier ≠ some absentee.stn) ∧
      (absentee.gu.airSending = none ∧ ({ absentee.gu with airSending := some .restart } : GuestUnit).airSending ≠ none) ∧
      (State.reset.sc.clockState = .unset ∧ sampleAnnounce.clock = some { day := 812, sec := 25200 }) := by decide +kernel

/-- R44: an entry that becomes ABSENT keeps its recorded generation and its age. -/
theorem test_absent_peer_keeps_its_age :
    (after (.peerAbsent 3) (withTp { work.tp with
      peers := work.tp.peers.set 3 { goodPeer with state := .stale, age := some 10000 } } work)).tp.peers[3] =
      { state := .absent, gen := 12, age := some 10000 } := by decide +kernel

/-- An OFFICE packet of two parts for station 3, and a message of two parts for it, whatever `next` says. -/
def pending2 (next : Nat) : OfficePending := { packet := samplePacket, dest := 3, tag := 5, next := next }
def message2 (next : Nat) : SendEntry := { msg := .sessionEnd, dest := 3, tag := 7, n := 2, next := next }

/-- The sample with a record, what its blocks keep, and n frames in the C queue. -/
def offering (record : List Frame) (control : List Frame) (office : List OfficePending) (night : List SendEntry)
    (n : Nat) : State :=
  { withTp { work.tp with recordC := record, qC := .replicate n fGuest } work with
    sc := { work.sc with pendingRecords := control }, fu := { work.fu with officePending := office }
    nlc := { work.nlc with sendList := night } }

theorem witness_RoomGoesToTheRecordInOrder :
    (work.tp.trunk = .active ∧ work.tp.trunk.isDuplicate = false ∧ work.tp.recordC = [] ∧ work.tp.keptA = [] ∧
        (onTrunk .dupHold).tp.trunk.isDuplicate = true) ∧
      (fC.payload = .records [] ∧ ∃ fs : List Frame, fs = [fC, fC] ∧ ∀ f ∈ fs, f.payload = .records []) ∧
      ((pending2 1).next < (pending2 1).packet.relayParts ∧ (pending2 2).packet.relayParts ≤ (pending2 2).next ∧
        (pending2 1).frame = relayFrame 3 5 .office samplePacket 1 ∧ 31 + 1 ≤ 32 ∧ 30 + ((pending2 1).packet.relayParts + 1 - 1) ≤ 32) ∧
      ((message2 1).frame = frameTo 3 7 (.office .sessionEnd 1 2) ∧ (message2 1).next < (message2 1).n ∧
        (message2 2).n ≤ (message2 2).next ∧ 30 + ((message2 1).n + 1 - 1) ≤ 32) ∧
      ((pending2 1).frame.owner = some .forward ∧ (message2 1).frame.owner = some .night ∧
        ({ pending2 1 with tag := 6 } : OfficePending).tag ≠ (pending2 1).frame.tag) := by
  refine ⟨by decide, ⟨rfl, _, rfl, by decide⟩, by decide, by decide, by decide⟩

/-- R34: three owners on record at 30, 29 and 31 frames in the queue; a withdrawn frame is passed over. -/
theorem test_places_go_to_the_record_in_order :
    let record := [fC, (pending2 2).frame, (message2 2).frame]
    let t (n : Nat) := (after .roomOffered (offering record [fC] [pending2 2] [message2 2] n)).tp
    ((t 30).qC.drop 30 = [fC, (pending2 2).frame] ∧ (t 30).recordC = [(message2 2).frame]) ∧
      ((t 29).qC.drop 29 = record ∧ (t 29).recordC = []) ∧
      ((t 31).qC.drop 31 = [fC] ∧ (t 31).recordC = [(pending2 2).frame, (message2 2).frame]) ∧
      (fun u : TrunkPort => (u.qC.drop 31, u.recordC))
          (after .roomOffered (offering [(pending2 1).frame, fC] [fC] [] [] 31)).tp = ([fC], []) ∧
      (fun u : TrunkPort => (u.qC.drop 31, u.recordC))
          (after .roomOffered (offering [(pending2 1).frame, fC] [fC] [pending2 1] [] 31)).tp =
        ([(pending2 1).frame], [fC, (pending2 2).frame]) := by decide +kernel

/-- R34: three messages and a RECORDS on record, an older message's turn after a younger one's: at each of the night
block's turns its oldest message goes, and the two change turns. -/
theorem test_an_older_message_takes_the_earlier_turn :
    let m (tag : Nat) : SendEntry := { message2 2 with tag := tag }
    let t (n : Nat) := (after .roomOffered
      (offering [(m 9).frame, (m 7).frame, fC, (m 8).frame] [fC] [] [m 7, m 8, m 9] n)).tp
    ((t 28).qC.drop 28, (t 28).recordC) = ([(m 7).frame, (m 8).frame, fC, (m 9).frame], []) ∧
      ((t 31).qC.drop 31, (t 31).recordC) = ([(m 7).frame], [(m 9).frame, fC, (m 8).frame]) := by decide +kernel

/-- R34: a younger message's turn, then those of both parts of an older one, then a RECORDS: the parts go first, the
younger message at the third turn and the RECORDS at the fourth. The same with packets of the forwarding unit. -/
theorem test_each_part_of_an_older_message_has_its_turn :
    let b : SendEntry := { message2 2 with tag := 9 }
    let q : OfficePending := { pending2 2 with tag := 9 }
    let t (n : Nat) := (after .roomOffered
      (offering [b.frame, (message2 1).frame, (message2 2).frame, fC] [fC] [] [message2 1, b] n)).tp
    let u := (after .roomOffered
      (offering [q.frame, (pending2 1).frame, (pending2 2).frame, fC] [fC] [pending2 1, q] [] 28)).tp
    ((t 28).qC.drop 28, (t 28).recordC) = ([(message2 1).frame, (message2 2).frame, b.frame, fC], []) ∧
      ((t 31).qC.drop 31, (t 31).recordC) = ([(message2 1).frame], [b.frame, (message2 2).frame, fC]) ∧
      (u.qC.drop 28, u.recordC) = ([(pending2 1).frame, (pending2 2).frame, q.frame, fC], []) := by decide +kernel

theorem witness_RoomGoesToTheRecordInOrder_turns :
    let m (tag : Nat) : SendEntry := { message2 2 with tag := tag }
    (∀ x ∈ [m 7, m 8, m 9], x.frame = frameTo x.dest x.tag (.office x.msg x.next x.n) ∧ x.n ≤ x.next) ∧
      [m 7, m 8, m 9].Pairwise (fun x y => x.msg ≠ y.msg ∨ x.tag ≠ y.tag) ∧
      fC.payload = .records [] ∧
      (message2 2 = { message2 1 with next := (message2 1).next + 1 } ∧ (message2 1).n = (message2 1).next + 1 ∧
        (m 9).n ≤ (m 9).next ∧ (message2 1).tag ≠ (m 9).tag ∧
        ∀ x ∈ [message2 1, message2 2, m 9], x.frame = frameTo x.dest x.tag (.office x.msg x.next x.n)) ∧
      (pending2 2 = { pending2 1 with next := (pending2 1).next + 1 } ∧
        (pending2 1).packet.relayParts = (pending2 1).next + 1 ∧
        ({ pending2 2 with tag := 9 } : OfficePending).packet.relayParts ≤ 2 ∧ (pending2 1).tag ≠ 9) := by decide

/-- The sample with an erase of bank 1 in flight. -/
def erasing1 : State := withBank1 { erasing := some { tag := 4, ms := 80 } } work

theorem witness_EraseRunsAndReportsAtItsEnd :
    work.is.recovered = true ∧ (work.is.bank 1).state = .erased ∧ ((withBank1 fillingBank work).is.bank 1).state = .filling ∧
      ((withBank1 { residue := true } work).is.bank 1).state = .torn ∧
      ((withBank1 sealedBank work).is.bank 1).state = .sealed ∧
      (((withBank1 { activeBank with retiredWord := .good () } work).is.bank 1).state = .retired ∧
        work.lrc.review = none) ∧
      (erasing1.is.bank 1).state = .erasing ∧ (work.is.bank 0).state = .active ∧
      (erasing1.is.bank 1).erasing = some { tag := 4, ms := 80 } ∧ (work.is.bank 1).erasing = none := by decide

theorem witness_OrdersWriteUpToTheFirstRefused :
    (work.is.recovered = true ∧ (work.is.bank 1).state = .erased ∧ ((withBank1 fillingBank work).is.bank 1).state = .filling) ∧
      ((erasing1.is.bank 1).state = .erasing ∧ (work.is.bank 0).state = .active ∧
        ((withBank1 { residue := true } work).is.bank 1).state = .torn ∧
        ((withBank1 sealedBank work).is.bank 1).state = .sealed ∧
        ((withBank1 { activeBank with retiredWord := .good () } work).is.bank 1).state = .retired) ∧
      (({} : Bank).state = .erased ∧ fillingBank.state = .filling ∧
        ({ dept := 12, entry := { overrideLevel := 3, openPrice := none, taxClass := 4 } } : DeptItem).bad = true ∧
        ({ dept := 12, entry := { overrideLevel := 3, openPrice := none, taxClass := 3 } } : DeptItem).bad = false) ∧
      ({ juiceItem with dept := 100 } : AppendItem).bad = true ∧
      (juiceItem.bad = false ∧ fillingBank.lastCode = some 5030700000411 ∧ juiceItem.code ≤ 5030700000411 ∧
        fillingBank.records.length < 8192) ∧
      (8192 ≤ (List.replicate 8192 juice).length ∧ fillingBank.deptEntry 13 = none) ∧
      (5030700000411 < ({ juiceItem with code := 5030700000412 } : AppendItem).code ∧ fillingBank.deptEntry 12 ≠ none ∧
        ({ juiceItem with code := 5030700000412 } : AppendItem).labelIndex = some 100 ∧ fillingBank.labelUse = some [100] ∧
        100 ∈ [100] ∧ 101 ∉ [100]) := by
  refine ⟨by decide, by decide, by decide, by decide, by decide, ⟨Nat.le_of_eq List.length_replicate.symm, by decide⟩,
    by decide⟩

/-- R5, R10: each field of a department entry at the end of its range, and one above it. -/
theorem test_department_entries_at_their_bounds :
    let e (d o t : Nat) (p : Option Nat) : DeptItem :=
      { dept := d, entry := { overrideLevel := o, openPrice := p, taxClass := t } }
    [e 99 3 3 (some 3), e 0 0 0 none, e 100 3 3 none, e 99 4 3 none, e 99 3 4 none, e 99 3 3 (some 4)].map DeptItem.bad =
      [false, false, true, true, true, true] := by decide

/-- R9, R11: a label index stays taken within one block; a first record of an ERASED bank has no department, and the
bank stays ERASED; a first DEPT entry opens it with the next generation. -/
theorem test_orders_open_a_bank_and_use_labels :
    let next (code : Nat) : AppendItem := { juiceItem with code := code, labelIndex := some 101 }
    let r := fillingBank.runAppend 58 [next 5030700000412, next 5030700000413] 0
    let d := ({} : Bank).runDept 58 [{ dept := 12, entry := { overrideLevel := 3, openPrice := none, taxClass := 0 } }] 0
    (r.1.records.length, r.1.labelUse, r.2) = (2, some [100, 101], 1, .labelTaken) ∧
      ({} : Bank).runAppend 58 [juiceItem] 0 = ({}, 0, .noDept) ∧
      (d.1.state, d.1.openWord, d.1.labelUse, d.1.lastCode) = (.filling, .good 59, some [], none) := by decide

theorem witness_SealWritesTheNextGeneration :
    let s := withBank1 fillingBank work
    (s.is.recovered = true ∧ (s.is.bank 1).state = .filling ∧ (s.is.bank (otherBank 1)).state ≠ .sealed ∧ 1439 ≤ 1439 ∧
        1 = (s.is.bank 1).records.length ∧ s.is.gen ≠ 4294967295 ∧ (s.is.bank 1).openWord = .good (s.is.gen + 1)) ∧
      ((erasing1.is.bank 1).state = .erasing ∧ (work.is.bank 0).state = .active ∧ (work.is.bank 1).state = .erased ∧
        ((withBank1 { residue := true } work).is.bank 1).state = .torn ∧
        ((withBank1 sealedBank work).is.bank 1).state = .sealed ∧
        ((withBank1 { activeBank with retiredWord := .good () } work).is.bank 1).state = .retired) ∧
      ((withBank1 fillingBank { work with is := { work.is with banks := .replicate 2 sealedBank } }).is.bank
        (otherBank 1)).state = .sealed ∧
      ((withBank1 { fillingBank with openWord := .good 58 } work).is.bank 1).openWord ≠ .good (work.is.gen + 1) := by decide

theorem witness_SwitchoverIsOneEvent :
    let s := withBank1 sealedBank work
    let before : State := { s with sc := { s.sc with clock := some { day := 812, sec := 25199 } } }
    let later : Bank := { sealedBank with sealWord := .good { count := 1, gen := 59, day := 812, minute := 421 } }
    (s.is.recovered = true ∧ s.lrc.review = none ∧ (s.is.bank 1).state = .sealed ∧
        (s.is.bank 1).sealWord = .good { count := 1, gen := 59, day := 812, minute := 420 } ∧ s.sc.clockState ≠ .unset ∧
        s.sc.clock = some { day := 812, sec := 25200 } ∧ 60 * 420 ≤ 25200 ∧ Tbl.wf {} s.lrc.labels = true) ∧
      ((s.is.bank 0).state ≠ .sealed ∧ later.state = .sealed ∧ 25200 < 60 * 421) ∧
      (State.reset.is.recovered = false ∧ State.reset.sc.clockState = .unset) ∧
      (∀ b : BankNo, (work.is.bank b).state ≠ .sealed) ∧
      (before.sc.clock = some { day := 812, sec := 25199 } ∧ 25199 < 60 * 420 ∧
        ∀ b : BankNo, (before.is.bank b).state = .sealed → (before.is.bank b).sealWord = (s.is.bank 1).sealWord) := by decide

/-- R14: at second 60 x 420 - 1 nothing happens, and at second 60 x 420 the bank is in force. -/
theorem test_switchover_at_the_second :
    let s (sec : Nat) : State := { withBank1 sealedBank work with
      sc := { work.sc with clock := some { day := 812, sec := sec } } }
    (after .switchover (s 25199)).is = (s 25199).is ∧ (after .switchover (s 25199)).lrc.review = none ∧
      (after .switchover (s 25200)).is.selected = some 1 := by decide +kernel

theorem witness_ItemStoreRecoverySelectsTheActiveBank :
    let s (b : Bank) := withBank1 b { work with is := { work.is with recovered := false } }
    (work.is.recovered = true ∧ (s {}).is.recovered = false) ∧
      (((s {}).is.bank 0).recover.state = .active ∧ ((s {}).is.bank 1).recover.state ≠ .active) ∧
      (((s { sealedBank with activeWord := .good () }).is.bank 1).recover.state = .active ∧
        ((s { sealedBank with activeWord := .good () }).is.bank 0).recover.sealGen <
          ((s { sealedBank with activeWord := .good () }).is.bank 1).recover.sealGen) ∧
      ((s activeBank).is.bank 1).recover.sealGen ≤ ((s activeBank).is.bank 0).recover.sealGen ∧
      (recordOfWords cheese.words = some cheese ∧ recordOfWords (cheese.words.take 3) = none ∧
        ({ fillingBank with tail := cheese.words } : Bank).recover.state = .filling ∧ activeBank.recover.state ≠ .filling) ∧
      (activeBank.records[0]? = some cheese ∧ cheese.labelIndex = some 7 ∧ ∀ r ∈ activeBank.records, r.labelIndex ≠ some 8) ∧
      work.sc.page.isSome = true ∧ State.reset.sc.page = none := by decide +kernel

/-- Table 1-1, R2: the state of a bank by its header words and content; a word whose check fails is absent. -/
theorem test_states_of_table_1_1 :
    let active : Bank := { sealedBank with activeWord := .good () }
    [({} : Bank), { residue := true }, fillingBank, { fillingBank with tail := cheese.words.take 3 }, sealedBank, active,
        { active with retiredWord := .good () }, { fillingBank with openWord := .failed },
        { active with sealWord := .failed }, { active with erasing := some { tag := 4, ms := 80 } }].map Bank.state =
      [.erased, .torn, .filling, .torn, .sealed, .active, .retired, .torn, .torn, .erasing] := by decide +kernel

theorem witness_RecordWordsReadBack : cheese.bad = false ∧ 3 < cheese.words.length := by decide

/-- What the item store finds for cheese. -/
def foundCheese : Found :=
  { item := cheese, position := 0, gen := 58, dept := some { overrideLevel := 3, openPrice := some 2, taxClass := 0 }, level := 1 }

theorem witness_PriceQueryIsAnsweredFromTheBankInForce :
    ((3 : Station) ≠ work.stn ∧ (onTrunk .listening).tp.trunk ≠ .active) ∧
      (work.tp.trunk = .active ∧ work.is.recovered = true ∧ work.is.search 5 = none ∧
        work.is.search 2100450000017 = some foundCheese) ∧
      ({ work with is := { work.is with recovered := false } } : State).is.recovered = false ∧
      (State.reset.is.selected = none ∧ work.is.selected = some 0 ∧ 2100450000017 ≠ 0) ∧
      ((∀ r ∈ (work.is.bank 0).records, r.code ≠ 5) ∧ (work.is.bank 0).records[0]? = some cheese ∧
        cheese.code = 2100450000017 ∧ (work.is.bank 0).deptEntry 12 = foundCheese.dept ∧
        (work.is.bank 0).deptEntry 13 = none) := by decide

theorem witness_PriceAnswerIsUsableOrStale :
    ((3 : Station) ≠ asking.stn ∧ asking.tp.trunk = .active ∧ asking.lu.queries[1].state ≠ .free ∧
        asking.lu.queries[1].tag = 33 ∧ asking.lu.queries[1].code = 5030700000411 ∧
        (∀ j : TillNo, j < 1 → asking.lu.queries[j].state = .free) ∧ asking.tp.peers[3].gen ≤ 12 ∧ asking.tp.peers[5].state = .absent) ∧
      (∀ k : TillNo, asking.lu.queries[k].state = .free ∨ asking.lu.queries[k].tag ≠ 34 ∨
        asking.lu.queries[k].code ≠ 5030700000411) ∧
      (asking.tp.peers[3].state ≠ .absent ∧ 11 < asking.tp.peers[3].gen ∧ asking.lu.queries[1].state = .try1 ∧
        asking.tp.qB.length < 16 ∧ 16 ≤ (fullB asking).tp.qB.length) ∧
      ({ asking.lu.queries[1] with state := .try2 } : QueryEntry).state = .try2 := by decide

theorem witness_QueriesRetryOnceAndComplete :
    (asking.lu.queries[0].state = .free ∧ asking.lu.queries[1].state = .try1 ∧ asking.tp.trunk = .active ∧
        asking.tp.qB.length < 16 ∧ 16 ≤ (fullB asking).tp.qB.length ∧ (onTrunk .listening).tp.trunk ≠ .active) ∧
      asking.bu.tills[1].outstanding = some { tag := 9, kind := .scan, wait := .lookup } ∧
      asking.bu.tills[1].scan = some { code := 5030700000411, measure := some (.quantity 4) } := by decide

/-- The sample passes the checks of R66 for every request on till line 1 with an OPEN basket of two lines. -/
def open2 : State := withBasket basket2 work

theorem witness_RequestsAreCheckedInOrder :
    (requestOf (.park 1 9) = some (1, 9, .park) ∧ State.reset.sc.page = none ∧ work.sc.page = some sampleSetup ∧
        sampleSetup.enabled[1] = true ∧
        ({ sampleSetup with enabled := .replicate 8 false } : SetupRecord).enabled[1] = false) ∧
      (asking.bu.tills[1].outstanding ≠ none ∧ work.bu.tills[1].outstanding = none ∧ work.bu.tills[0].session = none ∧
        work.bu.tills[1].session ≠ none ∧ ReqKind.takenIn .park work.bu.tills[1].basket.state = false) ∧
      (work.Accepts 0 .signOn ∧ work.Accepts 1 .scan ∧ work.Accepts 1 .key ∧ work.Accepts 1 .recall ∧
        work.Accepts 1 .enquire) ∧
      open2.Accepts 1 .voidLine ∧ open2.Accepts 1 .override ∧ open2.Accepts 1 .tender ∧ open2.Accepts 1 .refund ∧
      open2.Accepts 1 .cancel ∧ open2.bu.tills[1].basket.lines.length = 2 := by
  unfold State.Accepts
  exact ⟨by decide, by decide, by decide, by decide, by decide, by decide, by decide, by decide, by decide⟩

theorem witness_SessionsOpenAndEnd :
    work.Accepts 2 .signOn ∧ work.sc.page = some sampleSetup ∧ work.Accepts 1 .signOff := by
  unfold State.Accepts; decide

/-- A cache that answers for juice. -/
def cached : State :=
  { work with lu := { cache := ((Vector.replicate 32 {}).set 27
      { way0 := some { code := 5030700000411, owner := 3, gen := 12, item := juice, level := 3 } }) } }

/-- The full basket: 64 lines. -/
def fullBasket : Basket := { state := .opened, lines := .replicate 64 cheeseLine }

theorem witness_ScanFindsItsPriceAndAddsALine :
    (work.Accepts 1 .scan ∧ (withBasket fullBasket work).Accepts 1 .scan ∧ (Measure.weight (-743)).inRange = true ∧
        1 < work.level 1 none ∧ 1 < work.level 1 (some 3) ∧ 64 ≤ (withBasket fullBasket work).bu.tills[1].basket.lines.length ∧
        work.bu.tills[1].basket.lines.length < 64) ∧
      (work.is.recovered = true ∧ State.reset.is.recovered = false ∧ 0 < (Measure.quantity 99).value ∧
        work.level 1 (some 1) ≤ 1) ∧
      (work.is.search 2100450000017 = some foundCheese ∧ (Measure.weight 743).fits cheese.basis = true ∧
        (Measure.quantity 1).fits cheese.basis = false) ∧
      (cached.is.search 5030700000411 = none ∧
        cached.lu.cache[setOf 5030700000411].look 5030700000411 =
          (some { code := 5030700000411, owner := 3, gen := 12, item := juice, level := 3 },
            { way0 := some { code := 5030700000411, owner := 3, gen := 12, item := juice, level := 3 }, older1 := true }) ∧
        (Measure.quantity 4).fits juice.basis = true ∧ (Measure.weight 743).fits juice.basis = false) ∧
      (work.is.search 5 = none ∧ work.lu.cache[setOf 5].look 5 = (none, {}) ∧ work.tp.trunk = .active ∧
        work.tp.qB.length < 16 ∧ 16 ≤ (fullB work).tp.qB.length ∧ (onTrunk .listening).tp.trunk ≠ .active) ∧
      (work.ju.recovered = true ∧ State.reset.ju.recovered = false ∧ 2 ≤ work.ju.free ∧
        ({ work.ju with free := 1 } : JournalUnit).free < 2 ∧
        (({ held := 2 } : Basket).addLine cheeseLine).line cheeseLine.number = some cheeseLine.work) := by
  unfold State.Accepts; decide

/-- R50, R74: a weight of juice, which the cache has per piece, is BAD-QTY, and the cache's older-way mark has moved. -/
theorem test_scan_of_a_cached_item_by_weight :
    let t := after (.scan 1 9 5030700000411 (.weight 743) none) cached
    (t.out, t.lu.cache[setOf 5030700000411].older1, t.bu.tills[1].basket.lines) =
      ([.answer 1 9 (.refused .badQty)], true, []) := by decide

/-- R47, step 1: item code 0 is unknown at once, while the item store still recovers; a claimed level of 3 forbids a
return that the ceiling allows. -/
theorem test_scan_of_code_0_and_of_a_return :
    (after (.scan 1 9 0 (.quantity 1) none) { work with is := { work.is with recovered := false } }).out =
      [.answer 1 9 (.refused .unknownItem)] ∧
      (after (.scan 1 9 2100450000017 (.weight (-743)) (some 3)) work).out = [.answer 1 9 (.refused .level)] ∧
      (after (.scan 1 9 2100450000017 (.weight (-743)) (some 1)) work).bu.tills[1].basket.lines.length = 1 := by
  decide

theorem witness_EnquireAndKeyAreAnswered :
    (work.Accepts 1 .enquire ∧ work.is.recovered = true ∧ State.reset.is.recovered = false ∧
        work.is.search 2100450000017 = some foundCheese ∧ cached.is.search 5030700000411 = none ∧ work.is.search 5 = none ∧
        work.lu.cache[setOf 5].look 5 = (none, {}) ∧ work.tp.trunk = .active ∧ work.tp.qB.length < 16 ∧
        16 ≤ (fullB work).tp.qB.length ∧ (onTrunk .listening).tp.trunk ≠ .active) ∧
      (work.Accepts 1 .key ∧ (withBasket fullBasket work).Accepts 1 .key ∧ (Measure.quantity 99).inRange = true ∧
        (Measure.quantity (-99)).inRange = true ∧ work.is.deptEntry 99 = none) ∧
      (work.is.deptEntry 12 = some { overrideLevel := 3, openPrice := some 2, taxClass := 0 } ∧ work.level 1 none ≤ 2 ∧
        1 < work.level 1 none ∧ 2 < work.level 1 (some 3) ∧ work.level 1 (some 0) ≤ 1) ∧
      (work.sc.page = some sampleSetup ∧ work.bu.tills[1].session = some { cashier := 417, level := 2 }) := by
  unfold State.Accepts; decide

theorem witness_LinesAreVoidedAndOverridden :
    let voided := (basket2.voidLine (juiceLine 2 4).work).voidLine cheeseLine.work
    ((∀ l ∈ (withBasket voided work).bu.tills[1].basket.lines, l.voided = true) ∧
        (withBasket voided work).Accepts 1 .voidLast ∧ voided.line 1 = some { cheeseLine.work with voided := true }) ∧
      (open2.Accepts 1 .voidLast ∧
        open2.bu.tills[1].basket.lines = [cheeseLine.work] ++ (juiceLine 2 4).work :: [] ∧
        (juiceLine 2 4).work.voided = false ∧
        (basket2.voidLine (juiceLine 2 4).work).lines =
          [] ++ cheeseLine.work :: [{ (juiceLine 2 4).work with voided := true }]) ∧
      (open2.Accepts 1 .voidLine ∧ open2.bu.tills[1].basket.lines = [] ++ cheeseLine.work :: [(juiceLine 2 4).work] ∧
        cheeseLine.work.number = 1 ∧ (juiceLine 2 4).work.number = 2 ∧ cheeseLine.work.voided = false) ∧
      (open2.Accepts 1 .override ∧ cheeseLine.work.requiredLevel < open2.level 1 (some 2) ∧
        open2.level 1 (some 1) ≤ cheeseLine.work.requiredLevel ∧ open2.ju.recovered = true ∧ 0 < open2.ju.free ∧
        ({ open2.ju with recovered := false } : JournalUnit).recovered = false ∧
        ({ open2.ju with free := 0 } : JournalUnit).free = 0) := by
  unfold State.Accepts; decide

/-- A basket with one return of cheese. -/
def returnBasket : Basket :=
  ({ held := 2 } : Basket).addLine (scanLine 1 { source := .localBank, owner := 6, gen := 58, item := cheese, level := 1 } (.weight (-743)))

/-- Till line 1 signed on at level 1. -/
def atLevel1 (b : Basket) : State := withTill { session := some { cashier := 417, level := 1 }, basket := b } work

theorem witness_SubtotalCancelRefundAndSale :
    (open2.sc.page = some sampleSetup ∧ open2.Accepts 1 .subtotal ∧ open2.Accepts 1 .cancel ∧
        1 < open2.level 1 (some 2) ∧ open2.level 1 (some 1) ≤ 1) ∧
      (open2.Accepts 1 .refund ∧ 0 < open2.bu.tills[1].basket.total) ∧
      ((withBasket returnBasket work).Accepts 1 .refund ∧ (withBasket returnBasket work).bu.tills[1].basket.total = -789 ∧
        1 < (withBasket returnBasket work).level 1 none ∧ (atLevel1 returnBasket).level 1 none ≤ 1 ∧
        1 < (atLevel1 returnBasket).level 1 (some 3) ∧ (atLevel1 returnBasket).level 1 (some 0) ≤ 1 ∧
        (atLevel1 returnBasket).Accepts 1 .refund) ∧
      (work.gu.issue 5000 1488 none 1).1 = none := by
  unfold State.Accepts; decide

/-- R146: a group's records line by line, each override after its line, a VOIDED line as VOID; SALE or CANCEL last. -/
theorem test_group_order :
    let o : OverrideRec := { oldPrice := 349, newPrice := 299, level := 1 }
    let a : Line := { cheeseLine with overrides := [o] }
    let v : Line := { (juiceLine 2 4).work with voided := true }
    lineBodies [a, v] = [.line a.toLineBody, .override 1 349 299 1, .voidLine v.toLineBody] ∧ recordsOf [a, v] = 4 ∧
      ((after (.cancel 1 9 0) (withBasket basket2 work)).ju.queue.map fun g => g.bodies.length) = [3] := by decide

theorem witness_TendersApplyByTheirMethod :
    (open2.Accepts 1 .tender ∧ open2.sc.page = some sampleSetup ∧ basket2.total = 1488 ∧ basket2.remaining = 1488 ∧
        (planTender .cash 1487 1488 5).closes = false ∧ (planTender .cash 2000 1488 5).closes = true ∧
        basket2.remaining < 1489 ∧ basket2.tenders.length < 3) ∧
      ((withBasket returnBasket work).Accepts 1 .tender ∧ returnBasket.total ≤ 0) ∧
      (3 ≤ (List.replicate 3 ({ method := .card, tendered := 1, applied := 1 } : Tender)).length) ∧
      (1490 = roundDiv 1488 5 * 5 ∧ (1489 : Int) < 1490 ∧ (1488 : Int) ≤ 1489) := by
  unfold State.Accepts; decide

/-- The key of juice at station 3's generation 12, and a table of 16 entries of other keys. -/
def juiceKey : PromoKey := { code := 5030700000411, gen := 12 }
def otherPromos : List PromoEntry :=
  (List.range 16).map fun i =>
    { code := i, gen := 1, n := 3, m := 500, price := 199, taxClass := 0, count := 4, groups := 1, discount := 97 }
def juiceEntry : PromoEntry :=
  { code := 5030700000411, gen := 12, n := 3, m := 500, price := 199, taxClass := 0, count := 4, groups := 1, discount := 97 }

theorem witness_AmountsFollowTheStages :
    (cheeseLine.basis = .perKg ∧ cheeseLine.measure = .weight 743 ∧ cheeseLine.measure.fits cheeseLine.basis = true ∧
        cheeseLine.promotion = some (.percentOff 15) ∧ cheeseLine.overridden = false ∧ 0 ≤ cheeseLine.work.extended) ∧
      ((juiceLine 2 4).basis = .each ∧ (juiceLine 2 4).measure = .quantity 4 ∧
        (juiceLine 2 4).promotion = some (.multiBuy 3 500)) ∧
      (0 < basket2.total ∧ ({ juice with packSize := some 330 } : ItemRecord).packSize = some 330 ∧ juice.basis = .each) ∧
      (1 ≤ juiceEntry.n ∧ basket2.promos = [] ++ juiceEntry :: [] ∧ juiceEntry.code = juiceKey.code ∧
        juiceEntry.gen = juiceKey.gen) ∧
      (cheeseLine.work.promoKey = none ∧ (juiceLine 3 3).work.promoKey = some juiceKey ∧
        (∀ y ∈ basket2.lines, y.number ≠ 3) ∧ (juiceLine 3 3).work.terms = juiceEntry.terms ∧
        ({ juiceLine 3 3 with unitPrice := 198 } : Line).work.terms ≠ juiceEntry.terms) ∧
      ((∀ y ∈ otherPromos, y.code ≠ juiceKey.code ∨ y.gen ≠ juiceKey.gen) ∧ 16 ≤ otherPromos.length ∧
        countOf [(juiceLine 1 (-3)).work] juiceKey = 0 ∧ 0 < countOf [(juiceLine 1 3).work] juiceKey ∧
        (otherPromos.take 15).length < 16) ∧
      ((juiceLine 2 4).work.counts juiceKey = true ∧
        ({ (juiceLine 2 4).work with voided := true } : Line).counts juiceKey = false ∧
        [(juiceLine 2 4).work].find? (fun y => y.counts juiceKey) = some (juiceLine 2 4).work) := by decide

/-- R94, R96, Table 5-4: with 16 entries a new key's line is PROMO-SKIPPED; with 15 it makes the sixteenth; a line of
other terms than its entry's is PROMO-SKIPPED; at count 0 the entry goes. -/
theorem test_promotion_table_fills_and_empties :
    let add (ps : List PromoEntry) := (({ promos := ps } : Basket).addLine (juiceLine 1 4))
    ((add otherPromos).promos = otherPromos ∧ (add otherPromos).lines.map (·.promoSkipped) = [true]) ∧
      ((add (otherPromos.take 15)).promos = otherPromos.take 15 ++ [juiceEntry] ∧
        (add (otherPromos.take 15)).lines.map (·.promoSkipped) = [false]) ∧
      ((basket2.addLine { juiceLine 3 4 with unitPrice := 198 }).promos = [juiceEntry] ∧
        (basket2.addLine { juiceLine 3 4 with unitPrice := 198 }).lines.map (·.promoSkipped) = [false, false, true]) ∧
      (basket2.addLine (juiceLine 3 (-4))).promos = [] := by decide

/-- Basket content with the two lines of section 5.14. -/
def content2 : ParkContent :=
  { lines := basket2.lines, promos := basket2.promos, limit := false, origin := 1, cashier := 417, parked := none, held := 3 }

/-- A PARKED entry that holds it. -/
def parked2 : ParkEntry := { state := .parked, content := some content2, held := 3 }

/-- The sample with park slots 3 to 5 PARKED, IN-TRANSFER to till 2 of station 3 under tag 70, and ABANDONING. -/
def withPark : State :=
  { work with bu := { work.bu with park := ((Vector.replicate 16 {}).set 3 parked2 |>.set 4
      { parked2 with state := .inTransfer, ms := 300, requester := some { station := 3, till := 2, tag := 70 } } |>.set 5
      { parked2 with state := .abandoning, held := 1 } |>.set 6
      { parked2 with state := .inTransfer, ms := 300, requester := some { station := 3, till := 2, tag := 71 }
                     abandonPending := true }) } }

theorem witness_BasketsAreParkedAndRecalled :
    (open2.Accepts 1 .park ∧ open2.bu.park[0].state = .free) ∧
      (∀ j : ParkNo, ({ open2.bu with park := .replicate 16 parked2 } : BasketUnit).park[j].state ≠ .free) ∧
      (withPark.Accepts 1 .recall ∧ withPark.bu.park[3].state = .parked ∧ withPark.bu.park[3].content = some content2 ∧
        withPark.bu.park[4].state = .inTransfer ∧ withPark.bu.park[0].state = .free ∧
        withPark.bu.park[5].state = .abandoning) := by
  unfold State.Accepts; decide

theorem witness_OwnerAnswersTransfers :
    ((3 : Station) ≠ withPark.stn ∧ withPark.tp.trunk = .active ∧ ∀ j : ParkNo, 616 ≠ withPark.stn.val * 100 + j.val) ∧
      (615 = withPark.stn.val * 100 + (15 : ParkNo).val ∧ withPark.bu.park[15].state = .free) ∧
      (withPark.bu.park[3].state = .parked ∧ withPark.bu.park[3].content = some content2 ∧ (fullB withPark).tp.qB.length = 16 ∧
        withPark.bu.park[3].abandonPending = false) ∧
      (withPark.bu.park[4].state = .inTransfer ∧
        withPark.bu.park[4].requester = some { station := 3, till := 2, tag := 70 } ∧ withPark.tp.qB.length < 16 ∧
        withPark.bu.park[4].abandonPending = false) ∧
      (withPark.bu.park[6].state = .inTransfer ∧ withPark.bu.park[6].abandonPending = true ∧
        withPark.bu.park[6].content = some content2) := by decide

/-- Whatever `Config.parkParts` says, an empty B queue takes the parts, and a full one does not. -/
theorem witness_OwnerAnswersTransfers_parts :
    withPark.tp.qB.length + content2.partCount ≤ 16 ∧ 16 < (fullB withPark).tp.qB.length + content2.partCount := by
  have h : withPark.tp.qB.length = 0 := by decide
  have g : (fullB withPark).tp.qB.length = 16 := by decide
  rw [h, g]; unfold ParkContent.partCount; omega

/-- A RECALL of a PARKED entry that finds no room, without and with abandon pending. -/
theorem witness_OwnerAnswersTransfers_room :
    (withPark.bu.park[3].state = .parked ∧ withPark.bu.park[3].content = some content2) ∧
      ({ parked2 with abandonPending := true } : ParkEntry).state = .parked ∧
      ({ parked2 with abandonPending := true } : ParkEntry).abandonPending = true := by decide

theorem witness_RemoteRecallAsksTheOwner :
    (work.Accepts 1 .recall ∧ 304 = (3 : Station).val * 100 + (4 : ParkNo).val ∧ (3 : Station) ≠ work.stn ∧
        work.ju.recovered = true ∧ State.reset.ju.recovered = false ∧ work.tp.peers[3].state ≠ .absent ∧
        work.tp.peers[5].state = .absent ∧ 65 ≤ work.ju.free ∧ ({ work.ju with free := 65 } : JournalUnit).free = 65) ∧
      (work.tp.trunk = .active ∧ work.tp.qB.length < 16 ∧ 16 ≤ (fullB work).tp.qB.length ∧
        ({ work.ju with free := 64 } : JournalUnit).free < 65) := by
  unfold State.Accepts; decide

/-- Till line 1 recalls ticket 304 of station 3 under tag 33, in the phase given. -/
def recalling (c : RecallCtx) : State :=
  { withTill { session := some { cashier := 417, level := 2 }
               outstanding := some { tag := 9, kind := .recall, wait := .recall }, basket := { state := .recalling } } work with
    bu := { (withTill { session := some { cashier := 417, level := 2 }
                        outstanding := some { tag := 9, kind := .recall, wait := .recall }
                        basket := { state := .recalling } } work).bu with
      recalls := ((Vector.replicate 8 {}).set 1 c) } }

/-- A RECALL of ticket 304 that waited for the journal, and the same station before it is taken up. -/
def keptRecall (recovered : Bool) : State :=
  { withTill { session := some { cashier := 417, level := 2 }
               outstanding := some { tag := 9, kind := .recall, wait := .recovery }
               basket := { state := .recalling } } work with
    ju := { recovered := recovered }, deferred := [.recall 1 9 304 3] }

theorem witness_RemoteRecallAsksTheOwner_kept :
    let s := keptRecall true
    (304 = (3 : Station).val * 100 + (4 : ParkNo).val ∧ (3 : Station) ≠ s.stn ∧ s.pending = [] ∧ s.ju.recovered = true ∧
        s.deferred = [.recall 1 9 304 3]) ∧
      ({ s with deferred := [], bu := { s.bu with tills := s.bu.tills.set 1 { s.bu.tills[1] with
        outstanding := none, scan := none, basket := { s.bu.tills[1].basket with state := .empty } } } } : State).Accepts
          1 .recall := by
  unfold State.Accepts; decide

/-- R85, R112, section 8.6: a RECALL that waits for the journal is RECALLING, and its wait ends as a RECALL of that
moment: 65 records are reserved and the owner is asked. -/
theorem test_kept_recall_asks_when_the_journal_has_recovered :
    (after (.recallTicket 1 9 304) { work with ju := {} }) = keptRecall false ∧
      (match step (keptRecall true) with
        | .next t => (t.ju.reserved, t.bu.recalls[1].phase, t.deferred, t.tp.qB)
        | _ => (0, .idle, [], [])) = (65, .asking, [], [frameTo 3 33 (.recall 304 1)]) := by decide +kernel

/-- R114, step 1: the RECALL of an ABSENT station's ticket fails at once, while the journal still recovers. -/
theorem test_recall_of_an_absent_owner_fails_at_once :
    (after (.recallTicket 1 9 504) { work with ju := { work.ju with recovered := false } }).out =
      [.answer 1 9 (.refused .recallFailed)] := by decide

def asking304 : RecallCtx :=
  { phase := .asking, ticket := 304, owner := 3, tag := 33, reserved := 65, ms := 150, seq := 1 }

def receiving304 : RecallCtx :=
  { asking304 with phase := .receiving, parts := 2, head := some sampleParkHead, reserved := 3, taken := [(1, [cheeseLine])] }

/-- R116, R118: part 2 in ASKING, and answers in a phase that does not take them, change nothing; a RELEASED with no
context left is counted. -/
theorem test_recall_discards_what_its_phase_does_not_take :
    let part : ParkPart := { k := 2, n := 2, head := none, lines := [] }
    after (.parkData 3 33 304 part) (recalling asking304) = recalling asking304 ∧
      after (.releaseAnswer 3 33 304 .released) (recalling asking304) = recalling asking304 ∧
      after (.releaseAnswer 3 33 304 .tooLate) (recalling receiving304) = recalling receiving304 ∧
      after (.releaseAnswer 3 33 304 .inUse) (recalling receiving304) = recalling receiving304 ∧
      (after (.releaseAnswer 3 33 304 .released) work).bu.lostTransfers = 1 := by decide +kernel

theorem witness_RequesterTakesTheContentAndCompletes_discards :
    ((3 : Station) ≠ work.stn ∧ work.tp.trunk = .active ∧ asking304.phase = .asking) ∧
      (work.ctxFor 3 33 304 (fun p => decide (p = .asking) || decide (p = .receiving)) = none ∧
        (recalling asking304).ctxFor 3 33 304 (fun p => decide (p = .releasing)) = none ∧
        (recalling asking304).ctxFor 3 33 304 (fun p => decide (p ≠ .idle)) ≠ none ∧
        (recalling receiving304).ctxFor 3 33 304 (fun p => decide (p = .asking)) = none) := by decide

theorem witness_RequesterTakesTheContentAndCompletes :
    ((recalling asking304).bu.tills[1].outstanding = some { tag := 9, kind := .recall, wait := .recall } ∧
        (recalling asking304).ctxFor 3 33 304 (fun p => decide (p = .asking) || decide (p = .receiving)) = some 1 ∧
        asking304.taken = [] ∧ sampleParkHead.held ≤ 65 ∧ 65 < ({ sampleParkHead with held := 66 } : ParkHead).held ∧
        66 - 65 ≤ (recalling asking304).ju.free) ∧
      ((recalling receiving304).ctxFor 3 33 304 (fun p => decide (p = .asking) || decide (p = .receiving)) = some 1 ∧
        (∀ e ∈ receiving304.taken, e.1 ≠ 2) ∧ receiving304.taken.length + 1 = receiving304.parts ∧
        (recalling receiving304).tp.qB.length < 16 ∧
        receiving304.taken.length + 1 < ({ receiving304 with parts := 3 } : RecallCtx).parts ∧
        ∃ e ∈ receiving304.taken, e.1 = 1) ∧
      ((recalling { receiving304 with phase := .releasing }).ctxFor 3 33 304 (fun p => decide (p = .releasing)) = some 1 ∧
        receiving304.content.isSome = true) ∧
      (recalling asking304).ctxFor 3 33 304 (fun p => decide (p = .asking)) = some 1 ∧
      work.ctxFor 3 33 304 (fun p => decide (p ≠ .idle)) = none ∧ work.bu.recalls[1].phase = .idle := by decide

/-- Parts 2 and 1 of a content, taken in that order. -/
def outOfOrder : RecallCtx :=
  { receiving304 with parts := 2, taken := [(2, [(juiceLine 2 4).work]), (1, [cheeseLine.work])] }

theorem witness_RequesterTakesTheContentAndCompletes_content :
    (outOfOrder.head = some sampleParkHead ∧ outOfOrder.parts = [[cheeseLine.work], [(juiceLine 2 4).work]].length ∧
        outOfOrder.taken = [(2, [(juiceLine 2 4).work])] ++ (0 + 1, [cheeseLine.work]) :: [] ∧
        outOfOrder.taken = [] ++ (1 + 1, [(juiceLine 2 4).work]) :: [(1, [cheeseLine.work])]) ∧
      (outOfOrder.content.map ParkContent.lines = some basket2.lines ∧ asking304.content = none) ∧
      (65 < ({ sampleParkHead with held := 66 } : ParkHead).held ∧
        ({ recovered := true, free := 0 } : JournalUnit).free < 66 - 65) ∧
      16 ≤ (fullB (recalling receiving304)).tp.qB.length ∧
      (fullB (recalling receiving304)).ctxFor 3 33 304 (fun p => decide (p = .asking) || decide (p = .receiving)) =
        some 1 := by decide

/-- R116: 66 records with none free fail the recall JOURNAL-FULL; the last part with no room for RELEASE fails it BUSY. -/
theorem test_recall_fails_without_room :
    let first : ParkPart := { k := 1, n := 2, head := some { sampleParkHead with held := 66 }, lines := [cheeseLine] }
    let last : ParkPart := { k := 2, n := 2, head := none, lines := [juiceLine 2 4] }
    let full : State := { recalling asking304 with ju := { recovered := true, free := 0, reserved := 65 } }
    ((after (.parkData 3 33 304 first) full).out, (after (.parkData 3 33 304 first) full).ju.reserved) =
        ([.answer 1 9 (.refused .journalFull)], 0) ∧
      (after (.parkData 3 33 304 last) (fullB (recalling receiving304))).out = [.answer 1 9 (.refused .busy)] := by
  decide +kernel

/-- The sample with label 7 in another entry. -/
def withLabel (e : LabelEntry) : State := { work with lrc := { work.lrc with labels := [(7, e)] } }

theorem witness_LabelWakeSendsByState :
    (work.lrc.exchange = none ∧ work.lrc.running = true ∧ State.reset.lrc.running = false ∧
        512 = work.lrc.slots.getD 512 ∧ work.lrc.placed = none ∧ 8 * (7 % 512) + 7 / 512 = 56 ∧
        (work.lrc.label 7).state = .unchecked ∧ (work.lrc.label 7).wakeClass = .fast ∧ (work.lrc.label 8).state = .unbound) ∧
      (56 ≤ 56 ∧ ({ work.lrc with placed := some 56 } : LabelRadio).placed = some 56 ∧
        ({ work.lrc with placed := some 55 } : LabelRadio).placed = some 55 ∧ 55 < 56) ∧
      (((withLabel { state := .current, wakeCount := 15 }).lrc.cycle + 8) % 4 = 0 ∧
        ((withLabel { state := .current, wakeClass := .fast, wakeCount := 14 }).lrc.label 7).wakeCount < 15 ∧
        15 ≤ ((withLabel { state := .current, wakeClass := .fast, wakeCount := 15 }).lrc.label 7).wakeCount) ∧
      (((withLabel { state := .review, wakeClass := .fast }).lrc.label 7).state = .review ∧
        ((withLabel { state := .stale, stayFast := 4 }).lrc.label 7).state = .stale) ∧
      (63 ≤ ((withLabel { state := .unreachable, wakeClass := .fast, wakeCount := 63 }).lrc.label 7).wakeCount ∧
        ((withLabel { state := .unreachable, wakeClass := .fast, wakeCount := 62 }).lrc.label 7).wakeCount < 63 ∧
        ((withLabel { state := .unreachable, wakeClass := .fast, confirmed := some 58 }).lrc.label 7).confirmed =
          some work.is.gen) ∧
      (({ shown := some 57, confirmed := some 58 } : LabelEntry).shown = some 57 ∧
        ({ state := .stale, position := some 0 } : LabelEntry).position = some 0 ∧ activeBank.records[0]? = some cheese ∧
        ({ state := .stale, blankPending := true } : LabelEntry).blankPending = true ∧ ({} : LabelEntry).shown = none) := by
  decide

/-- R128: a label that shows another generation than the one it is confirmed at is told both. -/
theorem test_ping_carries_a_rebase :
    ({ shown := some 57, confirmed := some 58 } : LabelEntry).rebase = some (57, 58) ∧
      ({ shown := some 58, confirmed := some 58 } : LabelEntry).rebase = none := by decide

/-- Label 7 in an exchange. -/
def exchanging (e : LabelEntry) (x : Exchange) : State :=
  { work with lrc := { work.lrc with labels := [(7, e)], exchange := some x } }

theorem witness_LabelAnswersSetTheState :
    work.lrc.exchange = none ∧
      (exchanging { state := .stale, failCount := 5 } { label := 7, display := true, blank := false, gen := 58 }).lrc.exchange =
        some { label := 7, display := true, blank := false, gen := 58 } ∧
      (exchanging { state := .stale, failCount := 5 } { label := 7, display := true, blank := false, gen := 58 }).is.gen = 58 ∧
      5 ≤ ((exchanging { state := .stale, failCount := 5 }
        { label := 7, display := true, blank := false, gen := 58 }).lrc.label 7).failCount ∧
      ((exchanging { state := .review, failCount := 4 }
        { label := 7, display := false, blank := false, gen := 57 }).lrc.label 7).failCount < 5 := by decide

theorem witness_CycleEndsAndPassesAreCounted :
    (State.reset.lrc.running = false ∧ work.lrc.running = true ∧ work.lrc.passOn = false) ∧
      (Tbl.wf {} work.lrc.labels = true ∧ work.lrc.anyStale = false ∧
        3 ≤ ({ work.lrc with passOn := true, passCount := 3 } : LabelRadio).passCount) ∧
      ((withLabel { state := .stale, stayFast := 4 }).lrc.label 7).state = .stale := by decide

theorem witness_WalkEndAppliesEveryVerdict :
    let new : Bank := { sealedBank with records := [cheese, juice] }
    (work.lrc.review = none ∧
        ({ work.lrc with review := some { oldBank := some 0, newBank := 1, ms := 0, rebuild := false } } : LabelRadio).review =
          some { oldBank := some 0, newBank := 1, ms := 0, rebuild := false } ∧ Tbl.wf {} work.lrc.labels = true) ∧
      (new.records[0]? = some cheese ∧ cheese.labelIndex = some 7 ∧ new.records[1]? = some juice ∧
        juice.labelIndex ≠ some 7 ∧ activeBank.sealGen = 58 ∧ cheese ∈ activeBank.records) ∧
      (∀ r ∈ new.records, r.labelIndex ≠ some 1300) ∧ ({ state := .review } : LabelEntry).state = .review ∧
      State.reset.is.selected = none ∧ work.is.selected = some 0 := by decide

/-- R135, Table 7-5: a kept CURRENT label and an UNREACHABLE one begin at wake count 0, and flags stay in every row. -/
theorem test_verdicts_keep_the_flags :
    let e : LabelEntry :=
      { state := .review, confirmed := some 58, shown := some 57, wakeCount := 9, batteryLow := true, displayFault := true }
    let kept := e.verdict (.kept 3 cheese) (some 58) 59
    let lost := ({ e with failCount := 6 } : LabelEntry).verdict .blank (some 58) 59
    (kept.state, kept.wakeCount, kept.shown, kept.batteryLow, kept.displayFault) = (.current, 0, some 57, true, true) ∧
      (lost.state, lost.wakeCount, lost.shown, lost.batteryLow, lost.displayFault) =
        (.unreachable, 0, some 57, true, true) := by decide

/-- A group of one ABANDON record of slot 5, and one of till line 1. -/
def aGroup : Group := { holder := .park 5, bodies := [.override 1 349 299 1] }
def tillGroup : Group := { holder := .till 1, bodies := [.override 1 349 299 1] }

theorem witness_GroupsAreWrittenAtTheTail :
    (aGroup.bodies.length ≤ 65536 ∧ aGroup.bodies[0]? = some (.override 1 349 299 1) ∧
        aGroup.bodies.length ≤ ({ reserved := 1 } : JournalUnit).reserved ∧ work.ju.tailPos % 256 = 0) ∧
      (work.ju.queue = [] ∧ ({ work.ju with queue := [aGroup] } : JournalUnit).queue = aGroup :: []) ∧
      (∀ i, i < aGroup.bodies.length → (work.ju.tailPos + i) % 256 = 0 → (work.ju.tailPos + i) / 256 % 256 ≠ 1) ∧
      (tillGroup.holder = .till 1 ∧ aGroup.holder = .park 5 ∧
        ({ outstanding := some { tag := 9, kind := .tender, wait := .close }
           closing := some { kind := .sale, total := 1488, paid := 510, code := none } } : TillRec).closing =
          some { kind := .sale, total := 1488, paid := 510, code := none }) := by decide

/-- One whole page behind the head, the tail at the end of it: the newest page, until a group opens the next. -/
def wholePage : JournalUnit :=
  { recovered := true, words := [(0, some 0)], head := 256, readPos := 256, tailPos := 256, cend := 256, nextSeq := 256
    used := 256, reserved := 1, free := 65279 }

/-- R148, R153: a page vacated while it is the newest begins its erase when a group opens the page after it. -/
theorem witness_GroupsAreWrittenAtTheTail_erase :
    (wholePage.erasing = none ∧ wholePage.oldest + 256 ≤ wholePage.head ∧
        wholePage.oldest + 256 < (wholePage.writeGroup aGroup).tailPos ∧ 256 ≤ wholePage.used + aGroup.bodies.length ∧
        aGroup.bodies.length ≤ wholePage.reserved) ∧
      (wholePage.startErase = wholePage ∧
        (wholePage.writeGroup aGroup).erasing = some { page := 0, ms := 20 } ∧
        (wholePage.writeGroup aGroup).used = 1) ∧
      (work.ju.head < work.ju.oldest + 256) := by decide +kernel

/-- A record that closes no group, and one that does. -/
def openRecord (q : Seq) : JSlot := .record { body := .override 1 349 299 1, seq := q } false
def closingRecord (q : Seq) : JSlot := .record { body := .recovered true 0 1, seq := q } false

/-- What a power loss left: a closed group of one record, a record of the next group, and an incomplete one. -/
def cutJournal : JournalUnit :=
  { words := [(0, some 7)], slots := [(0, closingRecord 7), (1, openRecord 8), (2, .incomplete)] }

/-- The same with a full page of that group, and the next page in erase. -/
def fullJournal : JournalUnit :=
  { words := [(0, some 0)]
    slots := (List.range 256).map (fun i => (i, if i = 0 then closingRecord 0 else openRecord (BitVec.ofNat 32 i))) ++
      [(256, closingRecord 900)] }

theorem witness_EraseFreesThePageAndRecoveryRebuilds :
    (work.ju.erasing = none ∧ work.ju.owed = none ∧ work.ju.recovered = true ∧ State.reset.ju.recovered = false ∧
        State.reset.ju.slots = [] ∧ State.reset.ju.words = []) ∧
      (({ erasing := some { page := 10, ms := 0 }, owed := some { first := 3, found := 2 } } : JournalUnit).erasing =
          some { page := 10, ms := 0 } ∧
        ({ erasing := some { page := 10, ms := 0 }, owed := some { first := 3, found := 2 } } : JournalUnit).owed =
          some { first := 3, found := 2 }) ∧
      (({ head := 256, tailPos := 257, cend := 257, used := 257, free := 65279 } : JournalUnit).oldest + 256 ≤ 256 ∧
        256 < 257 ∧ 256 ≤ 257) := by decide

/-- The run of `cutJournal`: page 0 alone, 3 slots written, the group after slot 0 unfinished, an erased slot next. -/
theorem witness_EraseFreesThePageAndRecoveryRebuilds_run :
    let v : JournalUnit := { cutJournal with slots := Tbl.put .erased cutJournal.slots 2 .void }
    (0 < 256 ∧ 3 ≤ 256 ∧ 3 = 256 * 0 + 256 * 0 + 3) ∧
      (cutJournal.wordAt 0 = some 7 ∧ ∀ i < 256, 0 < i → cutJournal.wordAt ((0 + i) % 256) = none) ∧
      ((∀ p < 3, cutJournal.slotAt p ≠ .erased) ∧ ∀ i < 256, 3 ≤ i → cutJournal.slotAt (3 - 3 + i) = .erased) ∧
      (∀ e ∈ cutJournal.slots, cutJournal.wordAt (e.1 / 256) ≠ none) ∧
      (cutJournal.slotAt (3 - 1) = .incomplete ∧ v.slotAt 0 = closingRecord 7 ∧ v.slotAt 1 = openRecord 8 ∧
        v.slotAt 2 = .void ∧ (8 : Seq) + 1 = 9) ∧
      (JBody.closes (.recovered true 0 1) = true ∧ JBody.closes (.override 1 349 299 1) = false) ∧
      (cutJournal.slotAt 3 = .erased ∧ cutJournal.erasing = none) := by decide +kernel

/-- The run of a journal of which a power loss left one page word alone: page 5, no slot written, next sequence 9. -/
theorem witness_EraseFreesThePageAndRecoveryRebuilds_opened :
    let j : JournalUnit := { words := [(5, some 9)] }
    (5 < 256 ∧ 1280 = 256 * 5 ∧ 1280 = 256 * 5 + 256 * 0 + 0) ∧
      (j.wordAt 5 = some 9 ∧ ∀ i < 256, 0 < i → j.wordAt ((5 + i) % 256) = none) ∧
      (j.slotAt (1280 - 1) ≠ .incomplete ∧ ∀ i < 256, j.slotAt (1280 - 0 + i) = .erased) ∧
      (j.erasing = none ∧ j.slots = []) ∧ j.recover.nextSeq = 9 := by decide +kernel

/-- R153, R154: with the tail at slot 0 of a page opened by its word the page behind it, all behind the head, is erased,
and without that word it is the newest page and stays. -/
theorem test_erase_behind_an_opened_page :
    let j (words : Tbl (Option Seq)) : JournalUnit :=
      { words := words, head := 256, cend := 256, tailPos := 256, used := 256, free := 65280, recovered := true }
    (j [(0, some 0), (1, some 256)]).startErase.erasing = some { page := 0, ms := 20 } ∧
      (j [(0, some 0)]).startErase.erasing = none := by decide

/-- R154: a page with content and no word is ERASING from the reset on, and its erase goes on after the recovery. -/
theorem test_an_interrupted_erase_runs_from_the_reset :
    let j := ({ words := [(0, some 7)], slots := [(0, closingRecord 7), (600, closingRecord 9)] } : JournalUnit).afterCut {}
    (j.erasing, j.free, j.recover.erasing, j.recover.free) =
      (some { page := 2, ms := 20 }, 65280, some { page := 2, ms := 20 }, 65279) := by decide +kernel

/-- R154, R155: the incomplete record is void, the group of one record is closed by a RECOVERED record at the tail. -/
theorem test_recovery_closes_the_unfinished_group :
    let t := cutJournal.recover
    (t.slotAt 1 = openRecord 8 ∧ t.slotAt 2 = .void ∧
        t.slotAt 3 = .record { body := .recovered true 8 1, seq := 9 } false) ∧
      (t.cend, t.tailPos, t.head, t.used, t.free) = (4, 4, 0, 4, 65532) ∧ t.nextSeq = 10 ∧ t.owed = none := by
  decide +kernel

/-- R155, step 2: where the slot after the tail belongs to a page in erase, the RECOVERED record is owed, and the
committed end stands before the group; the end of that erase writes it. -/
theorem test_recovery_owes_without_room :
    let t := fullJournal.recover
    (t.cend, t.tailPos, t.nextSeq, t.owed, t.erasing) =
        (1, 256, 256, some { first := 1, found := 255 }, some { page := 1, ms := 20 }) ∧
      (t.used, t.free) = (256, 65024) ∧
      (t.eraseComplete.slotAt 256, t.eraseComplete.cend, t.eraseComplete.used, t.eraseComplete.free) =
        (.record { body := .recovered true 1 255, seq := 256 } false, 257, 257, 65279) := by decide +kernel

/-- `fullJournal` with a void slot of an earlier power loss behind its acknowledged end record. -/
def voidedJournal : JournalUnit :=
  { fullJournal with
    slots := Tbl.put .erased (Tbl.put .erased fullJournal.slots 1 .void) 0 (closingRecord 0).ack }

/-- R155, steps 2 and 3, with R154: the committed end stands before the group's first record, and the head passes the
void slot before it; the owed record is written at the tail and the head stays on the oldest unacknowledged record. -/
theorem test_recovery_owed_behind_a_void_slot :
    let t := voidedJournal.recover
    (t.cend, t.head, t.readPos, t.owed) = (2, 2, 2, some { first := 2, found := 254 }) ∧
      (t.eraseComplete.cend, t.eraseComplete.head) = (257, 2) := by decide +kernel

/-- A route table as setup gives it, and packets for its next hops. -/
def routed : State := { work with fu := { work.fu with setupRoutes := setupRoutesOf sampleSetup } }
def toTill1 : Packet := { samplePacket with dst := 0x0A010002#32, len := 20 }

theorem witness_PacketsAreRoutedByTheLongestPrefix :
    ((bestRoute routed.fu.table 0x0A010002#32).map (·.hop) = some .tillLines ∧
        (bestRoute routed.fu.table 0x0A020005#32).map (·.hop) = some .guestPort ∧
        bestRoute ([] : List Route) 0x0A010002#32 = none) ∧
      (20 ≤ toTill1.len ∧ 1500 < ({ samplePacket with len := 1501 } : Packet).len ∧
        ({ samplePacket with len := 19 } : Packet).len < 20) ∧
      (toTill1.dst = sampleSetup.tillNet.start + BitVec.ofNat 32 ((1 : TillNo).val + 1) ∧ sampleSetup.enabled[1] = true) ∧
      (work.judge = some 3 ∧ State.reset.judge = none ∧ (3 : Station) ≠ work.stn ∧
        (withTp { work.tp with peers := (Vector.replicate 16 {}).set 6 goodPeer } work).judge = some 6) := by decide

theorem witness_PacketsEnterByTheirPort :
    (work.lineEnabled 1 = true ∧ State.reset.lineEnabled 1 = false ∧ State.reset.sc.page = none) ∧
      (work.sc.page = some sampleSetup ∧ work.linkCounts = true ∧ samplePacket.dst ≠ sampleSetup.stationAddr ∧
        20 ≤ samplePacket.len ∧ samplePacket.len ≤ 1500 ∧ sampleSetup.officeNet.covers 0x0B000005#32 = true) ∧
      (({ src := 0x0B000001#32, dst := 0x0A000001#32, len := 20, body := .night .sessionEnd } : Packet).dst =
        sampleSetup.stationAddr) := by decide

/-- A packet of two parts in reassembly from station 3 under tag 70. -/
def reassembling : State :=
  { work with fu := { work.fu with reasm := ((Vector.replicate 8 none).set 0
      (some { src := 3, tag := 70, origin := .till, n := 2, next := 2, packet := { samplePacket with len := 500 }, ms := 20 })) } }

theorem witness_RelaysAreFormedAndReassembled :
    let marked : Forwarding := { work.fu with
      relayDropped := ((Vector.replicate 16 []).set 3 [{ tag := 70, n := 3, last := 1 }, { tag := 71, n := 2, last := 1 }]) }
    (samplePacket.len ≤ 1500 ∧ samplePacket.relayParts = 2 ∧ work.tp.trunk = .active ∧
        work.tp.qB.length + samplePacket.relayParts ≤ 16 ∧ work.tp.qC.length + samplePacket.relayParts ≤ 32 ∧
        16 < (List.replicate 15 fB).length + samplePacket.relayParts ∧
        32 < (List.replicate 31 fC).length + samplePacket.relayParts ∧ work.fu.officePending.length < 8 ∧
        8 ≤ (List.replicate 8 (pending2 1)).length) ∧
      ((3 : Station) ≠ work.stn ∧ work.fu.reasmOf 3 70 = none ∧ work.fu.reasm[0] = none) ∧
      (∀ i : Fin 8, ({ work.fu with reasm := (.replicate 8
        (some { src := 3, tag := 1, origin := .till, n := 2, next := 2, packet := samplePacket, ms := 1 })) } : Forwarding).reasm[i] ≠ none) ∧
      (reassembling.fu.reasmOf 3 70 = some 0 ∧ reassembling.fu.reasm[0] =
          some { src := 3, tag := 70, origin := .till, n := 2, next := 2, packet := { samplePacket with len := 500 }, ms := 20 }) ∧
      (∃ m ∈ marked.relayDropped[(3 : Station)], m.tag = 70 ∧ m.n = 3 ∧ m.last < 2) ∧
      (∀ m ∈ marked.relayDropped[(3 : Station)], m.tag ≠ 70 ∨ m.n ≠ 2 ∨ 2 ≤ m.last) ∧
      ∀ m ∈ marked.relayDropped[(3 : Station)], m.tag ≠ 71 ∨ m.n ≠ 2 ∨ 1 ≤ m.last := by decide

/-- Station 3's RELAY part k of n under a tag, of class TILL; and the till drops after the parts given, from a station
with every reassembly entry taken. -/
def part (tag k n : Nat) : Instr := .relay 3 tag { origin := .till, k := k, n := n, bytes := 500, packet := samplePacket }
def dropsAfter (parts : List Instr) : Nat :=
  (parts.foldl (fun s c => after c s) { work with fu := { work.fu with reasm := (.replicate 8
    (some { src := 5, tag := 1, origin := .guest, n := 2, next := 2, packet := samplePacket, ms := 20 })) } }).fu.droppedTill

/-- R166: the packet routed is the one its parts brought: part 1 of one packet and part 2 of another, of one source and
tag, give part 1's addresses and the bytes of both. -/
theorem test_the_parts_make_the_packet :
    let other : Packet := { samplePacket with dst := 0, len := 900 }
    (samplePacket.len, (({ sampleRelayPart with packet := samplePacket } : RelayPart).opening.add
      { sampleRelayPart with k := 2, bytes := 400, packet := other })) = (501, { samplePacket with len := 900 }) ∧
      ((RelayPart.opening sampleRelayPart).add { sampleRelayPart with k := 2, bytes := 1 }) = samplePacket := by decide

/-- R166: a discarded packet is counted once, another packet's parts between its own or not; a new one of the same tag
again. -/
theorem test_a_discarded_packet_is_counted_once :
    dropsAfter [part 70 1 3, part 70 2 3, part 70 3 3] = 1 ∧
      dropsAfter [part 70 1 3, part 71 1 2, part 70 2 3, part 71 2 2, part 70 3 3] = 2 ∧
      dropsAfter [part 70 1 3, part 70 2 3, part 70 1 3, part 70 2 3] = 2 ∧
      dropsAfter [part 70 2 3, part 70 3 3, part 70 2 2] = 2 := by decide +kernel

/-- R164, R165: with one place left, part 1 of two stays in the queue; the till packet is counted, the office packet is
pending from part 2 on, the guest packet counted by the trunk port. -/
theorem test_relay_refused_after_its_first_part :
    let s : State := withTp { work.tp with qB := .replicate 15 fB, qC := .replicate 31 fC } work
    let t (c : OriginClass) := s.relayTo 3 c samplePacket
    ((t .till).tp.qB.drop 15, (t .till).fu.droppedTill) = ([relayFrame 3 0 .till samplePacket 1], 1) ∧
      ((t .office).tp.qC.drop 31, (t .office).fu.officePending, (t .office).tp.recordC) =
        ([relayFrame 3 0 .office samplePacket 1], [{ packet := samplePacket, dest := 3, tag := 0, next := 2 }],
          [relayFrame 3 0 .office samplePacket 2]) ∧
      ((t .guest).tp.qC.drop 31, (t .guest).tp.guestDropped) = ([relayFrame 3 0 .guest samplePacket 1], 1) := by
  decide +kernel

/-- Station 6 as the carrier itself, inside the window, with a session in another state. -/
def night (st : SessionState) : State :=
  { withTp { work.tp with peers := (Vector.replicate 16 {}).set 6 goodPeer } work with
    nlc := { session := st, inside := true, carrier := some 6 }
    sc := { work.sc with clock := some { day := 812, sec := 7200 } } }

/-- The same with the clock out of the window. -/
def dayTime (st : SessionState) : State :=
  { night st with sc := { work.sc with clock := some { day := 812, sec := 25200 } } }

theorem witness_UplinkSendsByClassAndCredit :
    (work.sc.page = some sampleSetup ∧ sampleSetup.uplink = .yes ∧ work.fu.linkUp = true ∧ work.nlc.session ≠ .closing ∧
        State.reset.sc.page = none ∧ State.reset.linkCounts = false) ∧
      (work.fu.upTill = [] ∧ work.fu.upOffice = [] ∧ work.fu.upGuest = [] ∧
        ({ work.fu with upGuest := [samplePacket] } : Forwarding).upGuest = samplePacket :: []) ∧
      ((night .closing).nlc.session = .closing ∧ (night .closing).fu.upOffice = [] ∧
        (∀ e ∈ (night .closing).nlc.sendList, e.msg.boundForOffice = false) ∧
        ∃ e ∈ [({ message2 1 with msg := .records 3 5 [] } : SendEntry)], e.msg.boundForOffice = true) ∧
      ((List.replicate 32 samplePacket).length = 32 ∧ (List.replicate 64 samplePacket).length = 64) ∧
      (0 < ({ work.fu with credit := 1 } : Forwarding).credit ∧ work.fu.credit ≤ 0 ∧ work.fu.rate = .mbit10) := by
  refine ⟨by decide, by decide, by decide, ⟨List.length_replicate, List.length_replicate⟩, by decide⟩

/-- R168, R169: a window's credit starts a waiting guest packet of 501 bytes, whose frame is 519 bytes; an UNSET
station has none; and a link that goes down leaves none. -/
theorem test_credit_starts_a_guest_frame :
    let s : State := { work with fu := { work.fu with upGuest := [samplePacket] } }
    ((after .guestCreditWindow s).out = [.uplink samplePacket] ∧ (after .guestCreditWindow s).fu.credit = 36981) ∧
      (after .guestCreditWindow { s with sc := { s.sc with page := none } }).fu.credit = 0 ∧
      (after (.uplinkLinkChange false .mbit10) { s with fu := { s.fu with credit := 36981 } }).fu.credit = 0 := by
  decide +kernel

/-- The sample with one client in entry 0. -/
def withClient (e : ClientEntry) : State :=
  { work with gu := { work.gu with clients := (Vector.replicate 128 {}).set 0 e } }

/-- The sample with every client entry OPEN. -/
def fullClients (st : ClientState) : State :=
  { work with gu := { work.gu with clients := .replicate 128 { state := st, addr := 5 } } }

theorem work_find (a : ClientAddr) : work.gu.find a = none :=
  List.find?_eq_none.2 fun i _ => by simp [work]

theorem witness_ClientsJoinAndAreTold :
    (work.gu.airSending = none ∧ ({ work.gu with airSending := some .restart } : GuestUnit).airSending = some .restart ∧
        (work.gu.airQueue.filter AirMsg.isData).length < 32 ∧
        32 ≤ ((List.replicate 32 (AirMsg.data samplePacket)).filter AirMsg.isData).length) ∧
      (({ state := .admitted, admissionMs := 60001 } : ClientEntry).admissionMs ≤ 60000 * 2 ∧
        60000 * 2 < ({ state := .admitted, admissionMs := 60001 } : ClientEntry).admissionMs + 60000 ∧
        ({ state := .checking } : ClientEntry).state = .checking ∧ ({ state := .blocked } : ClientEntry).state = .blocked) ∧
      (State.reset.guestOn = false ∧ work.guestOn = true ∧ work.gu.clients[0].state = .free ∧
        (withClient { state := .opened, addr := 77 }).gu.find 77 = some 0) ∧
      work.gu.find 77 = none ∧
      (∀ i : Fin 128, (fullClients .opened).gu.clients[i].state ≠ .free) ∧
      (∀ i : Fin 128, (fullClients .admitted).gu.clients[i].state ≠ .opened) ∧
      (fullClients .opened).gu.clients[0].state = .opened := by
  refine ⟨by decide, by decide, by decide, work_find 77, fun i => ?_, fun i => ?_, ?_⟩ <;> simp [fullClients]

theorem witness_GuestTrafficIsMetered :
    work.gu.find 77 = none ∧ (State.reset.guestOn = false ∧ work.guestOn = true ∧
        (withClient { state := .opened, addr := 77, windowBytes := 300 }).gu.find 77 = some 0 ∧
        300 + ({ samplePacket with len := 500 } : Packet).len ≤ 800 ∧ 800 < 300 + samplePacket.len) ∧
      ((withClient { state := .opened, addr := 77, net := some samplePacket.dst }).gu.clients[0].net =
          some samplePacket.dst ∧ work.gu.airSending = none ∧
        ∀ j : Fin 128, j < 0 → work.gu.clients[j].state = .free ∨ work.gu.clients[j].net ≠ some samplePacket.dst) ∧
      ((withClient { state := .admitted, addr := 77 }).gu.clients[0].state = .admitted ∧
        (withClient { state := .blocked, addr := 77 }).gu.clients[0].state = .blocked ∧
        (withClient { state := .opened, addr := 77, strikes := 14 }).gu.clients[0].strikes < 15 ∧
        15 ≤ (withClient { state := .opened, addr := 77, strikes := 15 }).gu.clients[0].strikes) :=
  ⟨work_find 77, by decide, ⟨by decide, by decide, fun j h => absurd h (Fin.not_lt_zero j)⟩, by decide⟩

/-- R176: a packet for a client's network address goes on the air and is counted for that client. -/
theorem test_guest_delivery :
    let s := withClient { state := .opened, addr := 77, net := some samplePacket.dst }
    (s.deliverGuest samplePacket).out = [.air (.data samplePacket)] ∧
      (s.deliverGuest samplePacket).gu.clients[0].totalBytes = 501 := by decide +kernel

theorem witness_CodesAreIssuedAndEntered :
    work.gu.find 77 = none ∧ (State.reset.guestOn = false ∧ joined.gu.find 77 = some 12 ∧
        joined.gu.clients[12].state = .opened ∧ (withClient { state := .checking, addr := 77 }).gu.find 77 = some 0) ∧
      ((3 : Station).val = 0 * 10 + 3 ∧ 1207 = 1 * 1000 + 2 * 100 + 0 * 10 + 7 ∧
        [48, 51, 49, 50, 48, 55] = [48 + 0, 48 + 3, 48 + 1, 48 + 2, 48 + 0, 48 + 7]) ∧
      ((3 : Station) ≠ joined.stn ∧ joined.tp.peers[3].state ≠ .absent ∧ joined.tp.trunk = .active ∧
        joined.tp.qB.length < 16 ∧ joined.tp.peers[5].state = .absent) ∧
      (({ joined.gu with codes := [{ serial := 1207, uses := 1, validMs := 1, issued := none, till := 4 }] } : GuestUnit).judgeCode
          1207 = .ok ∧ joined.gu.judgeCode 1207 = .deny .unknown) ∧
      ((5000 : Nat) ≠ 0 ∧ ((5000 : Nat) : Int) ≤ 6420 ∧ joined.gu.codes.length < 256 ∧
        256 ≤ (List.replicate 256 ({ serial := 1, uses := 0, validMs := 1, issued := none, till := 4 } : CodeEntry)).length) :=
  ⟨work_find 77, by decide +kernel, by decide, by decide, by decide, by decide +kernel⟩

/-- Entry 12 of station 9 waits on the check of code 031207 at station 3 under tag 24. -/
def checking24 : State :=
  { joined with gu := { joined.gu with clients := (joined.gu.clients.set 12
      { state := .checking, addr := 77, code := some { issuer := 3, serial := 1207 }
        check := some { issuer := 3, tag := 24, ms := 50 } }) } }

theorem witness_ChecksAreAnsweredAndTaken :
    ((3 : Station) ≠ joined.stn ∧ joined.tp.trunk = .active ∧ joined.tp.qB.length < 16 ∧ 16 ≤ (fullB joined).tp.qB.length ∧
        ∀ x ∈ joined.gu.codes, x.serial ≠ 1207) ∧
      ([{ serial := 1207, uses := 1, validMs := 1, issued := none, till := 4 }] =
          ([] : List CodeEntry) ++ { serial := 1207, uses := 1, validMs := 1, issued := none, till := 4 } :: [] ∧
        ∀ y ∈ ([] : List CodeEntry) ++ [], y.serial ≠ 1207) ∧
      ((checking24.gu.clients[12].state = .checking ∧
          checking24.gu.clients[12].code = some { issuer := 3, serial := 1207 } ∧
          checking24.gu.clients[12].check = some { issuer := 3, tag := 24, ms := 50 }) ∧
        (∀ j : Fin 128, j < 12 → checking24.gu.clients[j].state ≠ .checking) ∧
        ∀ i : Fin 128, work.gu.clients[i].state ≠ .checking) ∧
      (checking24.gu.clients[12].state = .checking ∧ checking24.gu.clients[12].check ≠ none ∧
        joined.gu.clients[12].state ≠ .checking) :=
  ⟨by decide, by decide, ⟨by decide, by decide +kernel, fun i => by simp [work]⟩, by decide⟩

/-- The sample with another night window and second of the day. -/
def windowAt (start stop sec : Nat) : Bool :=
  ({ work with sc := { work.sc with
    page := some { sampleSetup with winStart := start, winEnd := stop }
    clock := some { day := 812, sec := sec } } } : State).inWindow

/-- R188: the window of minutes 60 to 300 at its boundary seconds, one across midnight, and one of no length. -/
theorem test_window_boundaries :
    [3599, 3600, 17999, 18000].map (windowAt 60 300) = [false, true, true, false] ∧
      [3599, 3600, 17999, 18000].map (windowAt 300 60) = [true, false, false, true] ∧
      [0, 3600, 86399].map (windowAt 60 60) = [false, false, false] := by decide

/-- R197, R200: the upload begins with the carrier's night flag and ends with it, its block returned. -/
theorem test_upload_follows_the_carriers_night_flag :
    let s : State := { offering [(message3 2).frame] [] [] [] 32 with
      nlc := { carrier := some 3, sendList := [message3 2] }
      ju := { recovered := true, slots := [(0, .record { body := .override 1 349 299 1, seq := 7 } false)], cend := 1
              tailPos := 1, used := 1, free := 65535 } }
    let up := after (.announce 3 { sampleAnnounce with night := true }) s
    let down := after (.announce 3 sampleAnnounce) up
    (s.nlc.upload, up.nlc.upload, up.ju.inflight.length, up.nlc.blockTimers.length) = (.idle, .uploading, 1, 1) ∧
      (down.nlc.upload, down.ju.inflight, down.nlc.blockTimers, down.ju.readPos) = (.idle, [], [], 0) := by
  decide +kernel

/-- R187, R193, R200: a lower-numbered station that becomes the carrier ends the session, and the reports of one that is
not the carrier go to the new one from their first part. -/
theorem test_carrier_change :
    let lost := after (.announce 3 sampleAnnounce) { night .calling with nlc := { (night .calling).nlc with
      sendList := [message3 1] } }
    let moved := after (.announce 1 sampleAnnounce) (offering [] [] [] [message3 2] 32 |> fun s =>
      { s with nlc := { s.nlc with carrier := some 3 } })
    (lost.nlc.session, lost.nlc.carrier, lost.nlc.sendList) = (.day, some 3, []) ∧
      (moved.nlc.carrier, moved.nlc.sendList) = (some 1, [{ message3 1 with dest := 1 }]) := by decide +kernel

theorem witness_SessionFollowsTheNight_upload :
    (nightPeer.flags.map (fun f => f.night) = some true ∧ goodPeer.flags.map (fun f => f.night) = some false ∧ work.nlc.upload = .idle) ∧
      (work.judge ≠ work.nlc.carrier ∧ (work.judge = some 3 ∧ (3 : Station) ≠ work.stn) ∧
        ({ State.reset with nlc := { carrier := some 3 } } : State).judge = none ∧
        (night .opened).judge = some (night .opened).stn ∧ (night .day).judge = (night .day).nlc.carrier) ∧
      (sampleSetup.winStart < sampleSetup.winEnd ∧ work.sc.clock = some { day := 812, sec := 25200 }) := by decide

theorem witness_SessionFollowsTheNight :
    (∀ n : Station, (night .day).judge = some n ↔ n = 6) ∧
      ((night .day).inWindow = true ∧ State.reset.nlc.inside = false ∧ (night .day).nlc.inside = true ∧
        (dayTime .opened).inWindow = false ∧ (dayTime .opened).nlc.session = .opened ∧
        (dayTime .calling).nlc.session = .calling ∧ (dayTime .closing).nlc.session = .closing) ∧
      (({ (night .day).nlc with holdMs := some 300000 } : NightLink).holdMs ≠ none ∧ (night .day).nlc.holdMs = none) ∧
      ((night .closing).fu.upOffice = [] ∧ ∀ e ∈ (night .closing).nlc.sendList, e.msg.boundForOffice = false) ∧
      ((night .day).sc.page = some sampleSetup ∧ (night .day).nlc.session = .day ∧
        (night .day).nlc.carrier = some (night .day).stn ∧ (night .day).nlc.served = false) := by decide

/-- An adoption in daytime with a switchover and a day roll due, and with neither. -/
theorem witness_SessionFollowsTheNight_adopted :
    let c : Time := { day := 812, sec := 25200 }
    let s : State := { withBank1 sealedBank work with sc := { work.sc with dayMark := some 811 } }
    let u (s : State) : State := { s with sc := { s.sc with
      clock := some c, clockState := .officeSet, clockMs := 0
      dayMark := if s.sc.clockState = .unset then none else s.sc.dayMark } }
    (exec .nightWindowEnter (u s) = .next (u s) ∧ exec .nightWindowLeave (u s) = .next (u s) ∧
        (u s).switchoverDue ≠ none ∧ (u s).dayDue ≠ none) ∧
      (exec .nightWindowEnter (u work) = .next (u work) ∧ exec .nightWindowLeave (u work) = .next (u work) ∧
        (u work).switchoverDue = none ∧ (u work).dayDue = none) :=
  ⟨⟨rfl, rfl, by decide, by decide⟩, rfl, rfl, by decide, by decide⟩

/-- A message of two parts in assembly from station 3 under tag 70. -/
def assembling : State :=
  { night .opened with nlc := { (night .opened).nlc with assembly := ((Vector.replicate 16 none).set 3
      (some { msg := .sessionEnd, tag := 70, n := 2, next := 2, ms := 1000 })) } }

/-- A BLOCK ACK for station 3, and a send list of it and two messages of two parts. -/
def ackMessage : SendEntry := { msg := .ackJournal 3 7 2, dest := 3, tag := 9, n := 1, next := 1 }
def twoMessages : List SendEntry := [ackMessage, message2 1, message2 1]

/-- R194: the BLOCK ACK goes first, as one BLOCK ACK frame, then the parts of the next message; with two places the
second of these parts is refused, and the last message is not handed. -/
theorem test_send_list_is_handed_in_order :
    let s := offering [] [] [] twoMessages 30
    (s.flushNight.tp.qC.drop 30, s.flushNight.tp.recordC, s.flushNight.nlc.sendList) =
        ([frameTo 3 9 (.blockAck (.journal 7 2)), frameTo 3 7 (.office .sessionEnd 1 2)],
          [frameTo 3 7 (.office .sessionEnd 2 2)], [message2 2, message2 1]) := by decide +kernel

theorem witness_NightMessagesAreTakenAndRelayed :
    ((3 : Station) ≠ work.stn ∧ work.tp.trunk = .active ∧ work.nlc.assembly[(3 : Station)] = none ∧
        assembling.nlc.assembly[(3 : Station)] = some { msg := .sessionEnd, tag := 70, n := 2, next := 2, ms := 1000 }) ∧
      (({ work.nlc with carrier := some 3 } : NightLink).carrier = some 3 ∧ work.nlc.carrier ≠ some 3 ∧
        work.readWaits 0 = false ∧ State.reset.readWaits 3 = true ∧ State.reset.readWaits 4 = false ∧
        State.reset.readWaits 32 = true ∧ work.is.recovered = true ∧ work.ju.recovered = true ∧
        NightMsg.boundForOffice (.records 3 5 []) = true ∧ NightMsg.isReport (.records 3 5 []) = true ∧
        work.nlc.sendList.length < 32 ∧ (3 : Station) ≠ work.stn) ∧
      ((night .opened).nlc.session = .opened ∧ (night .day).nlc.session = .day ∧
        (night .opened).tp.peers[3].state = .absent ∧ work.tp.peers[3].state ≠ .absent) ∧
      (work.onRecord .night = false ∧ (onTrunk .listening).tp.trunk ≠ .active ∧
        (offering [(message2 1).frame] [] [] [message2 1] 0).onRecord .night = true ∧
        (∀ e ∈ twoMessages, e.next ≤ e.n) ∧ twoMessages = [ackMessage] ++ message2 1 :: [message2 1] ∧
        0 + ((ackMessage.n + 1 - 1) + ((message2 1).n + 1 - 1) + ((message2 1).n + 1 - 1)) ≤ 32 ∧
        30 + (ackMessage.n + 1 - 1) + 1 = 32 ∧ 1 < (message2 1).n + 1 - 1 ∧
        (ackMessage.msg = .ackJournal 3 7 2 ∧ ({ ackMessage with msg := .ackActivity 3 4 } : SendEntry).msg = .ackActivity 3 4 ∧
          (message2 1).msg ≠ .ackJournal 3 7 2 ∧ (message2 1).msg ≠ .ackActivity 3 4)) ∧
      (32 ≤ (List.replicate 32 (message2 1)).length ∧ State.reset.is.recovered = false ∧ State.reset.ju.recovered = false) := by
  decide

/-- R194, R34: of a message of two parts, one finds the last place and the other goes on record; with that part on
record a later message stays behind it. -/
theorem test_night_parts_stop_at_the_first_refused :
    let s := offering [] [] [] [message2 1] 31
    (s.flushNight.tp.qC.drop 31, s.flushNight.tp.recordC, s.flushNight.nlc.sendList) =
        ([(message2 1).frame], [(message2 2).frame], [message2 2]) ∧
      (offering [(message2 2).frame] [] [] [message2 2, { message2 1 with tag := 8 }] 0).flushNight.tp.qC = [] := by
  decide +kernel

/-- One journal block and one activity block in flight to carrier 3. -/
def uploading (tries : Nat) : State :=
  { work with
    ju := { work.ju with inflight := [{ returned := false, first := 7, count := 2, tries := tries }] }
    nlc := { carrier := some 3, upload := .uploading, blockTimers := [{ first := 7, count := 2, ms := 30000 }]
             activity := [{ returned := false, number := 4, first := 0, last := 8191, positions := [0], gen := 58
                            tries := tries, ms := 30000 }] } }

/-- A journal that holds one record, and the upload at work on it for carrier 3, with no place for its parts. -/
def oneRecord : JournalUnit :=
  { recovered := true, slots := [(0, .record { body := .override 1 349 299 1, seq := 7 } false)], cend := 1, tailPos := 1
    used := 1, free := 65535 }
def offered (j : JournalUnit) : State :=
  { onTrunk .listening with
    ju := j, is := { work.is with activity := [0] }, nlc := { carrier := some 3, upload := .uploading } }

/-- A journal of one whole page and one record on the next: the page's last record alone is not acknowledged. -/
def nearlyVacated : JournalUnit :=
  { recovered := true, words := [(0, some 0), (1, some 256)]
    slots := (List.range 257).map fun i => (i, .record { body := .override 1 1 2 1, seq := BitVec.ofNat 32 i } (i < 255))
    head := 255, readPos := 255, tailPos := 257, cend := 257, nextSeq := 257, used := 257, free := 65279 }

/-- R151, R153: the acknowledgement that moves the head past a page's last slot begins the page's erase. -/
theorem test_ack_begins_the_page_erase :
    let t := nearlyVacated.ack 255 1
    (t.head, t.erasing, t.oldest, t.used) = (256, some { page := 0, ms := 20 }, 256, 1) ∧
      t.words = [(0, some 0), (1, some 256)] ∧ (nearlyVacated.ack 256 1).erasing = none := by decide +kernel

theorem witness_BlocksAreAcknowledgedOrReturned_erase :
    (nearlyVacated.cend - nearlyVacated.head ≤ 65536 ∧ nearlyVacated.erasing = none ∧
        nearlyVacated.oldest + 256 ≤ (nearlyVacated.ack 255 1).head ∧ nearlyVacated.oldest + 256 < nearlyVacated.tailPos ∧
        256 ≤ nearlyVacated.used) ∧
      ((nearlyVacated.ack 256 1).head < nearlyVacated.oldest + 256 ∧ oneRecord.tailPos < oneRecord.oldest + 256 ∧
        oneRecord.used < 256) := by decide +kernel

theorem witness_BlocksAreAcknowledgedOrReturned :
    ((3 : Station) ≠ work.stn ∧ work.tp.trunk = .active ∧ work.ju.recovered = true ∧ work.nlc.carrier ≠ some 3 ∧
        (uploading 1).nlc.carrier = some 3 ∧ ({ work.ju with recovered := false } : JournalUnit).recovered = false) ∧
      ((∀ e ∈ (uploading 1).nlc.activity, e.number ≠ 5) ∧
        (uploading 1).nlc.activity = [] ++ { returned := false, number := 4, first := 0, last := 8191, positions := [0]
                                             gen := 58, tries := 1, ms := 30000 } :: []) ∧
      ((∃ t ∈ (uploading 1).nlc.blockTimers, t.first = 7 ∧ t.count = 2) ∧
        (uploading 1).ju.inflight.find? (fun b => decide (b.first = 7) && decide (b.count = 2)) =
          some { returned := false, first := 7, count := 2, tries := 1 } ∧
        (uploading 3).ju.inflight.find? (fun b => decide (b.first = 7) && decide (b.count = 2)) =
          some { returned := false, first := 7, count := 2, tries := 3 }) ∧
      (∀ t ∈ (uploading 1).nlc.blockTimers, t.first ≠ 9 ∨ t.count ≠ 2) ∧
      (oneRecord.slotAt 0 = .record { body := .override 1 349 299 1, seq := 7 } false ∧ oneRecord.cend - oneRecord.head ≤ 65536) ∧
      ((offered oneRecord).nlc.upload = .uploading ∧ work.nlc.upload ≠ .uploading ∧ (offered oneRecord).nlc.sendList.length < 32 ∧
        32 ≤ (List.replicate 32 (message2 1)).length ∧ (3 : Station) ≠ work.stn) ∧
      ((oneRecord.nextBlock.1.map (·.first) = some 7 ∧ work.ju.nextBlock.1 = none) ∧
        ((offered work.ju).ju.inflight = [] ∧ (offered work.ju).nlc.activity.length < 4 ∧ (offered work.ju).nlc.cursor < 8192) ∧
        (uploading 1).ju.inflight ≠ []) ∧
      (oneRecord.inflight.length < 4 ∧ oneRecord.readPos < oneRecord.cend ∧
        [(0, ({ body := .override 1 349 299 1, seq := 7 } : JRecord))] =
          ((List.range (1 - 0)).filterMap fun i =>
            match oneRecord.slotAt (0 + i) with
            | .record r _ => some (0 + i, r)
            | _ => none).take 32) ∧
      ([0] = ((offered oneRecord).is.activity.filter fun p => decide (0 ≤ p) && decide (p ≤ 8191)).take 32 ∧
        ([0] : List Nat).getLast? = some 0) := by decide +kernel

/-- Section 8.6: before the journal's recovery an opportunity takes nothing; the recovery is one itself. -/
theorem test_opportunity_waits_for_the_recovery :
    let s := offered { oneRecord with recovered := false }
    (s.nlc.upload = .uploading ∧ s.nlc.sendList = [] ∧ s.ju.recovered = false) ∧ s.opportunity = s := by decide +kernel

/-- R34 to R36: at entry to ACTIVE the record takes its places before the upload's blocks that the ANNOUNCE starts. -/
theorem test_entry_to_active_offers_the_record_first :
    let s : State := { offering [fC, (message3 2).frame] [fC] [] [message3 2] 31 with ju := oneRecord }
    let t := after .duplicateListenEnd
      (withTp { s.tp with trunk := .dupListen, peers := (s.tp.peers.set 3 nightPeer).set 6 {} } s)
    (t.tp.qC.drop 31, t.nlc.upload, t.ju.inflight.length) = ([fC], .uploading, 1) := by decide +kernel

/-- R150, R199: an opportunity sends the journal block first; with none to send, and none in flight, the activity block. -/
theorem test_opportunity_sends_journal_before_activity :
    ((offered oneRecord).opportunity.ju.inflight, (offered oneRecord).opportunity.nlc.activity) =
        ([{ returned := false, first := 7, count := 1, tries := 1 }], []) ∧
      (offered work.ju).opportunity.nlc.activity.map (·.positions) = [[0]] ∧
      (offered work.ju).opportunity.nlc.cursor = 8192 := by decide +kernel

/-- Table 9-2: the routes of the sample setup, and with another uplink role and guest service off. -/
theorem test_setup_routes_of_table_9_2 :
    (setupRoutesOf sampleSetup).map (fun r => (r.net, r.hop, r.till, r.office, r.guest)) =
        [(sampleSetup.tillNet, .tillLines, true, true, false), (sampleSetup.guestNet, .guestPort, false, false, true),
          (sampleSetup.officeNet, .uplink, true, true, false), ({ addr := 0, len := 0 }, .uplink, true, true, true)] ∧
      (setupRoutesOf { sampleSetup with uplink := .no, guestService := .no }).map (fun r => r.hop) =
        [.tillLines, .drop, .trunkCarrier, .trunkCarrier] := by decide

/-- Till 1 waits on a price, a client of entry 0 is told what is on the air, packets and reports wait, a session is
OPEN. -/
def clearing : State :=
  { asking with
    gu := { clients := (Vector.replicate 128 {}).set 0 { state := .opened, addr := 77 }
            airSending := some .restart, airQueue := [.data samplePacket] }
    fu := { asking.fu with
      upTill := [samplePacket], upOffice := [samplePacket], upGuest := [samplePacket], officePending := [pending2 2] }
    nlc := { session := .opened, carrier := some 3, sendList := [message3 1] } }

/-- R87, R170, R185, R193, R201: what CLEAR SETUP ends. -/
theorem test_clear_setup_tells_every_block :
    let t := after (.clearSetup 3 5) clearing
    (.answer 1 9 (.refused .notReady) ∈ t.out ∧ t.bu.tills[1].session = none ∧ t.nlc.session = .day ∧ t.nlc.sendList = []) ∧
      (t.gu.airQueue, t.gu.guestDropped) = ([.notice 77 .evicted], 1) ∧
      (t.fu.droppedTill, t.fu.droppedOffice, t.fu.guestDropped) = (1, 2, 1) := by decide +kernel

theorem witness_SetupIsTakenAndCleared_blocks :
    (clearing.sc.page ≠ none ∧ (∀ k : TillNo, clearing.bu.tills[k].basket.state = .empty) ∧
        (∀ j : ParkNo, clearing.bu.park[j].state = .free)) ∧
      (clearing.bu.tills[1].outstanding = some { tag := 9, kind := .scan, wait := .lookup } ∧
        clearing.gu.airSending ≠ none ∧ joined.gu.airSending = none ∧ clearing.nlc.session ≠ .day) ∧
      (sampleSetup.extra = ([] : List Route).map ExtraRoute.route ∧ sampleSetup.uplink = .yes ∧
        ({ sampleSetup with uplink := .no } : SetupRecord).uplink ≠ .yes) := by decide +kernel

/-- R185, R189, R202: a SETUP with guest service on sends RESTART, behind what the port sends, and sets the day mark. -/
theorem test_setup_restarts_guests_and_marks_the_day :
    let r : SetupRecord := { sampleSetup with now := some { day := 812, sec := 0 } }
    let s := { work with sc := {}, gu := {} }
    let t := after (.setup 3 5 r) s
    let u := after (.setup 3 5 r) { s with gu := { airSending := some .restart, airQueue := [.notice 77 .evicted] } }
    let v := after (.setup 3 5 { r with guestService := .no }) s
    (t.gu.airSending, decide (.air .restart ∈ t.out), u.gu.airQueue, v.gu.airSending) =
        (some .restart, true, [.notice 77 .evicted, .restart], none) ∧
      t.sc.dayMark = some (if sampleSetup.winStart = 0 then 812 else 811) := by decide +kernel

theorem witness_SetupIsTakenAndCleared_guests :
    (sampleSetup.guestService = .yes ∧ ({ sampleSetup with guestService := .no } : SetupRecord).guestService ≠ .yes ∧
        State.reset.gu.airSending = none ∧ clearing.gu.airSending ≠ none) ∧
      ((after (.setup 3 5 sampleSetup) { work with sc := {} }).sc.clockState = .unset ∧
        (after (.setup 3 5 { sampleSetup with now := some { day := 812, sec := 0 } }) { work with sc := {} }).sc.clock =
          some { day := 812, sec := 0 }) := by decide +kernel

/-- Table 12-1, R125: S and k as they are used, at and beside each bound. -/
theorem test_clamps_of_slots_and_period :
    [0, 512, 513, 1024, 1025, 2048, 2049, 4096, 4097].map clampSlots =
        [512, 512, 1024, 1024, 2048, 2048, 4096, 4096, 4096] ∧
      [0, 1, 2, 16, 17].map clampPeriod = [2, 2, 2, 16, 16] := by decide

/-- R125, R140: a radio that starts with clamped values says so; with a review running it waits for the walk's end. -/
theorem test_setup_starts_the_radio :
    let s : State := { work with sc := {} }
    let v : Review := { oldBank := none, newBank := 0, ms := 100, rebuild := false }
    let t := after (.setup 3 5 { sampleSetup with slots := 513, period := 17 }) s
    let u := after (.setup 3 5 sampleSetup) { s with lrc := { s.lrc with review := some v } }
    (t.lrc.slots, t.lrc.period, t.lrc.slotsClamped, t.lrc.periodClamped) = (some 1024, some 16, true, true) ∧
      u.lrc = { work.lrc with review := some { v with rebuild := true } } := by decide +kernel

theorem witness_SetupIsTakenAndCleared_radio :
    let v : Review := { oldBank := none, newBank := 0, ms := 100, rebuild := false }
    (work.is.recovered = true ∧ work.lrc.review = none ∧
        ({ work with lrc := { work.lrc with review := some v } } : State).lrc.review = some v) ∧
      State.reset.is.recovered = false ∧ State.reset.sc.page = none := by decide

theorem witness_SetupIsTakenAndCleared :
    ((3 : Station) ≠ work.stn ∧ work.tp.trunk = .active ∧ work.sc.page ≠ none ∧ State.reset.sc.page = none ∧
        sampleSetup.badField = none ∧ ({ sampleSetup with winEnd := 1440 } : SetupRecord).badField = some .window ∧
        ({ sampleSetup with extra := [.badHop { addr := 0, len := 8 }] } : SetupRecord).badField = some .extra) ∧
      (State.reset.sc.clockState = .unset ∧
        ({ sampleSetup with now := some { day := 812, sec := 0 } } : SetupRecord).now = some { day := 812, sec := 0 }) ∧
      (∃ k : TillNo, open2.bu.tills[k].basket.state ≠ .empty) ∧ (∃ j : ParkNo, withPark.bu.park[j].state ≠ .free) ∧
      (∀ k : TillNo, work.bu.tills[k].basket.state = .empty) ∧ (∀ j : ParkNo, work.bu.park[j].state = .free) := by decide

theorem witness_ReadsAreAnsweredOrKept :
    ((3 : Station) ≠ work.stn ∧ work.tp.trunk = .active ∧ State.reset.is.recovered = false ∧
        State.reset.ju.recovered = false) ∧
      ((work.is.recovered = true ∧ work.ju.recovered = true) ∧ work.sc.pendingRecords.length < 4 ∧ work.tp.qC.length < 32 ∧
        4 ≤ (List.replicate 4 fC).length ∧ 32 ≤ (List.replicate 32 fC).length) ∧
      (work.is.selected = some 0 ∧ State.reset.is.selected = none ∧ (work.is.bank 0).erasing = none ∧
        (work.is.bank 0).records[0]? = some cheese ∧ (work.is.bank 0).records[1]? = none ∧
        (erasing1.is.bank 1).erasing ≠ none ∧ work.is.deptEntry 12 ≠ none ∧ work.is.deptEntry 13 = none) ∧
      (oneRecord.head + 0 < oneRecord.cend ∧ oneRecord.cend ≤ oneRecord.head + 1 ∧
        work.gu.codes[0]? = none ∧ (112 : Nat) ∉ [0, 1, 2, 3, 16, 32, 48, 49, 64, 80, 96]) := by decide

/-- The status record and the header of an ERASING bank: the label of `work`, a journal whose tail stands in an opened
page and one whose page word is not written, a head with and without a record, an owed RECOVERED record. -/
theorem witness_ReadsAreAnsweredOrKept_status :
    let page (words : Tbl (Option Seq)) : JournalUnit :=
      { words := words, head := 256, cend := 256, tailPos := 256, used := 256, free := 65280, recovered := true }
    ((erasing1.is.bank 1).erasing ≠ none ∧ (2 : Nat) = (1 : BankNo).val + 1) ∧
      ((page [(0, some 0), (1, some 256)]).tailPos % 256 = 0 ∧ (page [(0, some 0), (1, some 256)]).wordAt 1 ≠ none ∧
        (page [(0, some 0)]).wordAt 1 = none ∧ oneRecord.tailPos % 256 ≠ 0) ∧
      (oneRecord.head < oneRecord.cend ∧
        oneRecord.slotAt oneRecord.head = .record { body := .override 1 349 299 1, seq := 7 } false ∧
        (page [(0, some 0)]).cend ≤ (page [(0, some 0)]).head) ∧
      (oneRecord.owed = none ∧
        ({ oneRecord with owed := some { first := 7, found := 1 } } : JournalUnit).owed = some { first := 7, found := 1 }) ∧
      (Tbl.wf {} work.lrc.labels = true ∧ [7].Nodup ∧ ([] : List Nat).Nodup) := by decide

/-- The labels of `work`: label 7, UNCHECKED, alone is bound, and none has a flag. -/
theorem witness_ReadsAreAnsweredOrKept_labels (i : Nat) :
    (i ∈ [7] ↔ (work.lrc.label i).state ≠ .unbound) ∧ (i ∈ [7] ↔ (work.lrc.label i).state = .unchecked) ∧
      (i ∈ ([] : List Nat) ↔ (work.lrc.label i).state = .stale) ∧
      (i ∈ ([] : List Nat) ↔ (work.lrc.label i).batteryLow = true) := by
  by_cases h : i = 7
  · subst h; decide
  · have h' : ¬7 = i := fun e => h e.symm
    simp [work, LabelRadio.label, Tbl.get, h, h']

/-- R142, R144, R186: the counts of the status record of `work` and of a journal of one record. -/
theorem test_counts_of_the_status_record :
    let l := work.lrc.status
    let g := joined.gu.status
    (l.unbound, l.unchecked, l.stale, l.batteryLow) = (4095, 1, 0, 0) ∧
      (oneRecord.status.headSeq, oneRecord.status.pagesWriting, oneRecord.status.pagesErased) = (some 7, 1, 255) ∧
      g.free + g.opened + g.checking + g.admitted + g.blocked = 128 := by decide +kernel

/-- R206: with 4 RECORDS waiting a read is discarded and counted at once, though its bank's block recovers. -/
theorem test_fifth_read_is_dropped_while_recovering :
    let t := after (.readRecords 3 5 0 0 1) { work with
      is := { work.is with recovered := false }, sc := { work.sc with pendingRecords := .replicate 4 fC } }
    (t.sc.readsDropped, t.deferred) = (1, []) := by decide +kernel

/-- R207: the FAULT pin after reset, at work, in DUPLICATE, and at 3,276 and 3,277 free journal slots. -/
theorem test_fault_pin :
    State.reset.faultPin = true ∧ work.faultPin = false ∧ (onTrunk .dupListen).faultPin = true ∧
      ({ work with ju := { work.ju with free := 3276 } } : State).faultPin = true ∧
      ({ work with ju := { work.ju with free := 3277 } } : State).faultPin = false := by decide

/-- The sample a day behind: a day roll is due. -/
def rollDue : State := { withPark with sc := { work.sc with dayMark := some 811 } }

theorem witness_DayRollReachesEveryBlock :
    (work.dayDue = none ∧ rollDue.dayDue = some 812) ∧
      (work.sc.page = some sampleSetup ∧ work.sc.clock = some { day := 812, sec := 25200 } ∧ work.sc.dayMark = some 812 ∧
        work.sc.clockState ≠ .unset) ∧
      (rollDue.bu.park[4].state = .inTransfer ∧ rollDue.bu.park[3].state = .parked ∧ rollDue.bu.park[3].content ≠ none ∧
        rollDue.bu.park[0].state = .free ∧ rollDue.bu.park[5].state = .abandoning) ∧
      (sumOf (fun j : ParkNo => rollDue.bu.park[j].held - 1) [3] ≤ ({ rollDue.ju with reserved := 2 } : JournalUnit).reserved ∧
        (fins 16).filter (fun j : ParkNo =>
          decide (rollDue.bu.park[j].state = .parked) && rollDue.bu.park[j].content.isSome) = [3]) := by decide

/-- R120: the day roll hands the ABANDON group of the one PARKED entry and releases all but one of its records. -/
theorem test_day_roll_hands_the_abandon_group :
    let s := { rollDue with ju := { rollDue.ju with reserved := 9 } }
    ((after .dayRoll s).ju.queue.map (fun g => (g.holder, g.bodies.length)), (after .dayRoll s).ju.reserved) =
      ([(.park 3, 1)], 9 - (parked2.held - 1)) := by decide +kernel

/-- R22: an erase cut short of a bank with nothing in it leaves it ERASED, of a FILLING one TORN; a DEPT cut short after
its OPEN word leaves the bank FILLING without entries. -/
theorem test_power_loss_in_an_erase_and_in_a_dept :
    let cut (b : Bank) := [EraseStage.headerPartly 1, .contentLeft false 0].map fun st =>
      ({ b with erasing := some { tag := 4, ms := 80 } } : Bank).afterCut st |>.recover.state
    let dept (whole : List DeptItem) := (work.is.cutWrite
      (.dept 1 whole { dept := 12, entry := { overrideLevel := 3, openPrice := none, taxClass := 3 } })).bank 1
    (cut {}, cut { openWord := .good 59 }, cut fillingBank) = ([.erased, .erased], [.erased, .erased], [.torn, .torn]) ∧
      ((dept []).recover.state, (dept []).depts.length) = (.filling, 0) := by decide +kernel

/-- R53: a PRICE QUERY that waited for the item store's recovery is searched in ACTIVE and not in DUPLICATE. -/
theorem test_a_kept_query_is_not_searched_in_duplicate :
    let q : Waiting := .query 3 70 2100450000017 .sale
    ((State.takeUp q work).tp.qB.length, (State.takeUp q work).is.accessed) = (1, [0]) ∧
      (State.takeUp q (onTrunk .dupHold)).is.accessed = [] := by decide +kernel

/-- Section 8.6: what a power loss leaves of a group of two records: one and an incomplete one, or a page word alone. -/
theorem test_power_loss_within_a_group :
    let j : JournalUnit := { work.ju with queue := [{ aGroup with bodies := [.override 1 1 2 1, .override 2 3 4 1] }] }
    let a := j.afterCut { groupRecords := 1, groupNext := .incomplete }
    let b := j.afterCut { groupNext := .pageWord }
    (a.words, a.slots) =
        ([(0, some 0)], [(0, .record { body := .override 1 1 2 1, seq := 0 } false), (1, .incomplete)]) ∧
      (b.words, b.slots) = ([(0, some 0)], []) := by decide +kernel

theorem witness_PowerOnResetKeepsTheStoresAlone_cut :
    let j : JournalUnit := { work.ju with queue := [aGroup] }
    (j.erasing = none ∧ j.queue = aGroup :: []) ∧
      (({} : PowerCut).groupNext = .untouched ∧ ({ groupNext := .pageWord } : PowerCut).groupNext = .pageWord ∧
        ({ groupNext := .incomplete } : PowerCut).groupNext = .incomplete ∧
        ({} : PowerCut).groupRecords < aGroup.bodies.length) := by decide

/-- R185, R202: a SET station with guest service on sends RESTART at power-on, and shows its share clamp. -/
theorem test_power_on_restarts_guests :
    let t := after (.powerOnReset 3 {}) { work with sc := { work.sc with page := some { sampleSetup with guestShare := 51 } } }
    (t.gu.airSending, decide (.air .restart ∈ t.out), t.sc.shareClamped) = (some .restart, true, true) ∧
      (after (.powerOnReset 3 {}) State.reset).gu.airSending = none := by decide +kernel

/-- R153, R154: a loss in the erase of page 0 leaves its slots without its word, or nothing, and page 1 as it was. -/
theorem test_power_loss_in_a_page_erase :
    let j : JournalUnit := { nearlyVacated with erasing := some { page := 0, ms := 7 } }
    let a := j.afterCut { page := .wordCleared }
    let b := j.afterCut { page := .allErased }
    (a.wordAt 0, a.wordAt 1, a.erasing) = (none, some 256, some { page := 0, ms := 20 }) ∧ a.slots = j.slots ∧
      (b.wordAt 0, b.wordAt 1, b.slotAt 7, b.slotAt 256, b.erasing) =
        (none, some 256, .erased, j.slotAt 256, none) := by decide +kernel

theorem witness_PowerOnResetKeepsTheStoresAlone_page :
    let j : JournalUnit := { nearlyVacated with erasing := some { page := 0, ms := 7 } }
    (j.erasing = some { page := 0, ms := 7 } ∧ j.queue = [] ∧ Tbl.wf none j.words = true) ∧
      (({ page := .wordCleared } : PowerCut).page = .wordCleared ∧ ({ page := .allErased } : PowerCut).page = .allErased ∧
        (256 : Nat) / 256 % 256 ≠ 0 ∧ (255 : Nat) / 256 % 256 = 0) := by decide

theorem witness_PowerOnResetKeepsTheStoresAlone_banks :
    (work.sc.page = some sampleSetup ∧ sampleSetup.guestService = .yes) ∧
      ((erasing1.is.cutWrite .nothing).bank 1).erasing ≠ none ∧ ((work.is.cutWrite .nothing).bank 0).erasing = none ∧
      (({} : PowerCut).erase0 = .untouched ∧ ({ erase1 := .headerPartly 2 } : PowerCut).erase1 = .headerPartly 2 ∧
        ({ erase1 := .contentLeft true 1 } : PowerCut).erase1 = .contentLeft true 1 ∧
        ({ erase1 := .allErased } : PowerCut).erase1 = .allErased) ∧
      (({} : Bank).state = .erased ∧ fillingBank.state = .filling ∧ sealedBank.state = .sealed ∧ activeBank.state = .active) ∧
      ((({} : Bank).runAppend 58 [] 0).2.2 = .done ∧ (fillingBank.runDept 58 [] 0).2.2 = .done ∧
        (fillingBank.refuses { juiceItem with code := 5030700000412, labelIndex := none }).isNone = true ∧
        fillingBank.deptEntry 13 = none ∧ fillingBank.deptEntry 12 ≠ none) := by decide

theorem witness_PowerOnResetKeepsTheStoresAlone :
    (∀ b : BankNo, (work.is.bank b).erasing = none) ∧ ({} : PowerCut).write = .nothing ∧ work.ju.erasing = none ∧
      work.ju.queue = [] := by decide

/-- The invariants hold of the sample at work, and a step of it answers a next state. -/
theorem witness_EveryStepKeepsTheJournalAccount :
    work.ju.AccountsClose ∧ step { work with pending := [.contentionRoundEnd] } = .next work := by
  unfold JournalUnit.AccountsClose; exact ⟨by decide, rfl⟩

/-- Till 1's basket, the entries of `withPark` and the group of its ABANDONING entry hold 3 + 9 + 1 records. -/
def holding : State :=
  { withPark with
    bu := { withPark.bu with tills := open2.bu.tills }
    ju := { recovered := true, reserved := 13, free := 65523, queue := [aGroup] } }

theorem witness_EveryStepKeepsTheJournalAccount_holders : holding.HoldersAgree where
  sum := by decide
  baskets := by unfold Basket.Holds Numbered; decide
  recalls k := by
    have h : holding.bu.recalls[k] = {} := by revert k; decide
    rw [h]; exact ⟨fun _ => rfl, nofun, fun g => absurd rfl g⟩
  scans k h := absurd (show holding.bu.tills[k].scan = none by revert k; decide) h
  park j := by
    have hc : ∀ j : ParkNo, holding.bu.park[j].state = .parked ∨ holding.bu.park[j].state = .inTransfer →
        holding.bu.park[j].content = some content2 ∧ holding.bu.park[j].held = recordsOf content2.lines := by decide
    exact ⟨by revert j; decide, by revert j; decide,
      fun h => ⟨content2, (hc j h).1, by decide, by unfold Numbered; decide, (hc j h).2⟩⟩
  groups := ⟨by decide, fun g h => by cases List.mem_singleton.1 (show g ∈ [aGroup] from h); exact ⟨by decide, by decide⟩⟩
  kept := ⟨by decide, fun w h => (List.not_mem_nil (a := w) h).elim⟩
  unread h := absurd h (by decide)

theorem witness_EveryStepKeepsTheJournalAccount_transfers :
    holding.TransfersAgree ∧ ∀ j : ParkNo, holding.bu.park[j].Shaped :=
  ⟨fun k x h => absurd h (by revert k; decide), by unfold ParkEntry.Shaped; decide⟩

/-- The sample with the carrier that its peer table gives. -/
def carried : State := { work with nlc := { carrier := some 3 } }

theorem witness_EveryStepKeepsTheTrunkRules_carrier : carried.CarrierTrue := by
  refine ⟨by decide, by decide, ⟨fun h => absurd rfl h, fun ⟨_, n, f, h, g, i⟩ => ?_⟩, fun _ => by decide⟩
  cases h
  cases show some _ = some f from g
  cases i

theorem witness_EveryStepKeepsTheTrunkRules :
    work.tp.QueuesFit ∧ work.tp.SilentUnlessActive ∧ (onTrunk .dupHold).tp.SilentUnlessActive := by
  unfold TrunkPort.QueuesFit TrunkPort.SilentUnlessActive; decide

theorem witness_EveryStepKeepsTheCacheTrue : cached.CacheTrue := by
  have h0 : ∀ i : Fin 32, ∀ e ∈ cached.lu.cache[i].way0,
      setOf e.code = i ∧ e.owner ≠ cached.stn ∧ cached.tp.peers[e.owner].state ≠ .absent ∧
        cached.tp.peers[e.owner].gen ≤ e.gen := by decide +kernel
  have h1 : ∀ i : Fin 32, cached.lu.cache[i].way1 = none := by decide +kernel
  refine fun i => ⟨fun e h => h0 i e h, fun e h => ?_, fun a b _ h => ?_⟩ <;> cases (h1 i).symm.trans h

theorem witness_EveryStepKeepsClientsAndCodes :
    (withClient { state := .opened, addr := 77 }).ClientsHold ∧ joined.gu.CodesHold := by
  have h : ∀ i : Fin 128, i ≠ 0 → (withClient { state := .opened, addr := 77 }).gu.clients[i] = {} := fun i k => by
    have k' : ¬0 = i.1 := fun e => k (Fin.ext e.symm)
    simp [withClient, k']
  have h0 : (withClient { state := .opened, addr := 77 }).gu.clients[(0 : Fin 128)] = { state := .opened, addr := 77 } := by
    simp [withClient]
  refine ⟨⟨fun i => ?_, fun i j hi hj _ => ?_⟩, by unfold GuestUnit.CodesHold; decide⟩
  · by_cases k : i = 0
    · subst k; rw [h0]; simp [ClientEntry.Holds]
    · rw [h i k]; simp [ClientEntry.Holds]
  · by_cases k : i = 0
    · by_cases l : j = 0
      · rw [k, l]
      · exact absurd (by rw [h j l]) hj
    · exact absurd (by rw [h i k]) hi

theorem witness_SealedBanksStandAndGiveTheGeneration :
    work.is.GenerationTrue ∧ work.is.SealedWhole ∧ (work.is.bank 0).state = .active ∧
      ((after (.sealBank 4 1 1 812 480) (withBank1 fillingBank work)).is.bank 0).state = .active := by
  unfold ItemStore.GenerationTrue ItemStore.SealedWhole; decide

theorem witness_CreditAndCountersKeepTheirRange :
    (after .guestCreditWindow work).CreditKept ∧ work.counters.Within ∧
      (∀ pins cut rest, ({ work with pending := [.contentionRoundEnd] } : State).pending ≠ .powerOnReset pins cut :: rest) ∧
      ∀ rest, ({ work with pending := [.contentionRoundEnd] } : State).pending ≠ .guestCreditWindow :: rest := by
  refine ⟨by unfold State.CreditKept; decide, by unfold Counters.Within; decide, by simp, by simp⟩

theorem witness_EveryStepKeepsTheTablesCanonical : work.TablesCanonical := by
  unfold State.TablesCanonical; decide

theorem witness_EveryStepKeepsTheTablesCanonical_labels : work.LabelsHold := by
  intro i
  by_cases h : i = 7
  · subst h; unfold LabelEntry.Holds; decide
  · have e : work.lrc.label i = {} := by simp [work, LabelRadio.label, Tbl.get, Ne.symm h]
    rw [e]; unfold LabelEntry.Holds; decide

end Sys2Proof.Tests
end

/-!
PROOFS. A till's request (R64 to R67): every one of the fourteen runs through `State.request`; what each of its checks
answers, which fields it compares and in what order, and O20 from these.
-/

namespace Sys2Proof.Machine

/-! ## Single checks -/

@[simp] theorem firstRefusal_some_cons (r : Refused) (cs : List (Option Refused)) :
    firstRefusal (some r :: cs) = some r := rfl

@[simp] theorem firstRefusal_none_cons (cs : List (Option Refused)) :
    firstRefusal (none :: cs) = firstRefusal cs := rfl

theorem refuseIf_true {b : Bool} {r : Refused} (h : b = true) : refuseIf b r = some r := if_pos h

theorem refuseIf_false {b : Bool} {r : Refused} (h : b = false) : refuseIf b r = none := by
  simp [refuseIf, h]

theorem checkCashier_refuses {c : Nat} (h : c < 1 ∨ 9999 < c) : checkCashier c = some .badQty :=
  refuseIf_true (by simpa using h)

theorem checkCashier_passes {c : Nat} (h1 : 1 ≤ c) (h2 : c ≤ 9999) : checkCashier c = none :=
  refuseIf_false (by simp; omega)

theorem checkClaimed_refuses {l : Nat} (h : 3 < l) : checkClaimed (some l) = some .level :=
  refuseIf_true (by simpa using h)

theorem checkItemCode_refuses {c : Nat} (h : 9999999999999 < c) : checkItemCode c = some .unknownItem :=
  refuseIf_true (by simpa using h)

theorem checkItemCode_passes {c : Nat} (h : c ≤ 9999999999999) : checkItemCode c = none :=
  refuseIf_false (by simpa using h)

theorem Measure.quantity_inRange (q : Int) : (Measure.quantity q).inRange = true ↔ -99 ≤ q ∧ q ≠ 0 ∧ q ≤ 99 := by
  simp [Measure.inRange]; omega

theorem Measure.weight_inRange (g : Int) : (Measure.weight g).inRange = true ↔ -30000 ≤ g ∧ g ≠ 0 ∧ g ≤ 30000 := by
  simp [Measure.inRange]; omega

theorem Measure.inRange_of {m : Measure} (hq : ∀ q, m = .quantity q → -99 ≤ q ∧ q ≠ 0 ∧ q ≤ 99)
    (hg : ∀ g, m = .weight g → -30000 ≤ g ∧ g ≠ 0 ∧ g ≤ 30000) : m.inRange = true := by
  cases m with
  | quantity q => exact (Measure.quantity_inRange q).2 (hq q rfl)
  | weight g => exact (Measure.weight_inRange g).2 (hg g rfl)

theorem Measure.not_inRange_of {m : Measure} (hq : ∀ q, m = .quantity q → q < -99 ∨ q = 0 ∨ 99 < q)
    (hg : ∀ g, m = .weight g → g < -30000 ∨ g = 0 ∨ 30000 < g) : m.inRange ≠ true := by
  cases m with
  | quantity q =>
    have out := hq q rfl
    rw [Ne, Measure.quantity_inRange]; omega
  | weight g =>
    have out := hg g rfl
    rw [Ne, Measure.weight_inRange]; omega

theorem checkMeasure_refuses {m : Measure} (h : m.inRange ≠ true) : checkMeasure m = some .badQty :=
  refuseIf_true (by simpa using h)

theorem checkMeasure_passes {m : Measure} (h : m.inRange = true) : checkMeasure m = none :=
  refuseIf_false (by simpa using h)

theorem checkDept_refuses {d : Nat} (h : 99 < d) : checkDept d = some .unknownItem :=
  refuseIf_true (by simpa using h)

theorem checkDept_passes {d : Nat} (h : d ≤ 99) : checkDept d = none :=
  refuseIf_false (by simpa using h)

theorem checkPrice_refuses {p : Nat} (h : 9999999 < p) : checkPrice p = some .badPrice :=
  refuseIf_true (by simpa using h)

theorem checkPrice_passes {p : Nat} (h : p ≤ 9999999) : checkPrice p = none :=
  refuseIf_false (by simpa using h)

theorem checkAmount_refuses {a : Nat} (h : a < 1 ∨ 999999999 < a) : checkAmount a = some .badPrice :=
  refuseIf_true (by simpa using h)

theorem checkLineNumber_refuses {count n : Nat} (h : n < 1 ∨ count < n) : checkLineNumber count n = some .state :=
  refuseIf_true (by simpa using h)

theorem checkLineNumber_passes {count n : Nat} (h1 : 1 ≤ n) (h2 : n ≤ count) : checkLineNumber count n = none :=
  refuseIf_false (by simp; omega)

theorem checkTicket_refuses {t : Nat} (h : 15 < t / 100 ∨ 15 < t % 100) : checkTicket t = some .noTicket := by
  have malformed : readTicket t = none := dif_neg (by omega)
  exact refuseIf_true (by simp [malformed])

/-! ## A request as a command -/

/-- The field checks of a request, in the order of its fields in Table 4-2. -/
def fieldChecks (s : State) : Instr → List (Option Refused)
  | .signOn _ _ cashier claimed => [checkCashier cashier, checkClaimed (some claimed)]
  | .scan _ _ code m claimed => [checkItemCode code, checkMeasure m, checkClaimed claimed]
  | .key _ _ d price q claimed => [checkDept d, checkPrice price, checkMeasure (.quantity q), checkClaimed claimed]
  | .voidLine k _ n => [checkLineNumber s.bu.tills[k].basket.lines.length n]
  | .override k _ n price claimed =>
    [checkLineNumber s.bu.tills[k].basket.lines.length n, checkPrice price, checkClaimed (some claimed)]
  | .tender _ _ _ amount => [checkAmount amount]
  | .refund _ _ claimed => [checkClaimed claimed]
  | .cancel _ _ claimed => [checkClaimed (some claimed)]
  | .recallTicket _ _ ticket => [checkTicket ticket]
  | .enquire _ _ code => [checkItemCode code]
  | _ => []

/-- Every till request runs through the one order of checks, with its own field checks last. -/
theorem exec_request {c : Instr} {k : TillNo} {t : Nat} {kind : ReqKind} (hc : requestOf c = some (k, t, kind))
    (s : State) : ∃ taken, exec c s = .next (s.request k t kind (fieldChecks s c) taken) := by
  cases c <;> cases hc <;> exact ⟨_, rfl⟩

/-! ## The checks before the field checks (R66) -/

section Checks

variable {s : State} {k : TillNo} {t : Nat} {kind : ReqKind} {fields : List (Option Refused)} {taken : State → State}
  {record : SetupRecord}

theorem State.isSet_of_page (hp : s.sc.page = some record) : s.isSet = true := s.isSet_iff.2 ⟨record, hp⟩

theorem State.lineEnabled_of_page (hp : s.sc.page = some record) : s.lineEnabled k = record.enabled[k] := by
  simp [State.lineEnabled, hp]

theorem State.lineEnabled_iff : s.lineEnabled k = true ↔ ∃ r, s.sc.page = some r ∧ r.enabled[k] = true := by
  cases hp : s.sc.page <;> simp [State.lineEnabled, hp]

theorem State.request_unset (hp : s.sc.page = none) :
    s.request k t kind fields taken = { s with out := s.out ++ [.answer k t (.refused .notReady)] } := by
  have unset : s.isSet = false := by simp [State.isSet, hp]
  simp [State.request, unset, State.refuse, State.answer, State.emit]

theorem State.request_disabled (hp : s.sc.page = some record) (hl : record.enabled[k] = false) :
    s.request k t kind fields taken = s := by
  simp [State.request, s.isSet_of_page hp, (s.lineEnabled_of_page hp).trans hl]

/-- On an enabled line the first check that fails gives the refusal, and nothing else changes. -/
theorem State.request_refused {r : Refused} (hp : s.sc.page = some record) (hl : record.enabled[k] = true)
    (hj : s.judgeRequest k kind fields = some r) :
    s.request k t kind fields taken = { s with out := s.out ++ [.answer k t (.refused r)] } := by
  simp [State.request, s.isSet_of_page hp, (s.lineEnabled_of_page hp).trans hl, hj, State.refuse, State.answer,
    State.emit]

theorem State.judgeRequest_pending (ho : (s.till k).outstanding ≠ none) :
    s.judgeRequest k kind fields = some .pending := by
  have first : refuseIf (s.till k).outstanding.isSome .pending = some .pending :=
    refuseIf_true (Option.isSome_iff_ne_none.2 ho)
  simp only [State.judgeRequest, first, List.cons_append, firstRefusal_some_cons]

/-- With no request outstanding the check for PENDING passes. -/
theorem State.judgeRequest_idle (ho : (s.till k).outstanding = none) :
    s.judgeRequest k kind fields =
      firstRefusal (refuseIf (decide (kind ≠ .signOn) && (s.till k).session.isNone) .noSession ::
        refuseIf (if kind = .signOn then (s.till k).session.isSome
          else !kind.takenIn (s.till k).basket.state) .state :: fields) := by
  have first : refuseIf (s.till k).outstanding.isSome .pending = none :=
    refuseIf_false (Option.isSome_eq_false_iff.2 (Option.isNone_iff_eq_none.2 ho))
  simp only [State.judgeRequest, first, List.cons_append, List.nil_append, firstRefusal_none_cons]

theorem State.judgeRequest_noSession (ho : (s.till k).outstanding = none) (hk : kind ≠ .signOn)
    (hs : (s.till k).session = none) : s.judgeRequest k kind fields = some .noSession := by
  rw [State.judgeRequest_idle ho, refuseIf_true (by simp [hk, hs]), firstRefusal_some_cons]

theorem State.judgeRequest_signedOn (ho : (s.till k).outstanding = none) (hs : (s.till k).session ≠ none) :
    s.judgeRequest k .signOn fields = some .state := by
  rw [State.judgeRequest_idle ho, refuseIf_false (by simp), firstRefusal_none_cons,
    refuseIf_true (by simpa [Option.isSome_iff_ne_none] using hs), firstRefusal_some_cons]

theorem State.judgeRequest_notTaken (ho : (s.till k).outstanding = none) (hk : kind ≠ .signOn)
    (hs : (s.till k).session ≠ none) (hb : kind.takenIn (s.till k).basket.state = false) :
    s.judgeRequest k kind fields = some .state := by
  rw [State.judgeRequest_idle ho, refuseIf_false (by simpa [hk, Option.isSome_iff_ne_none] using hs),
    firstRefusal_none_cons, refuseIf_true (by simp [hk, hb]), firstRefusal_some_cons]

theorem State.accepts_iff :
    s.Accepts k kind ↔
      (∃ r : SetupRecord, s.sc.page = some r ∧ r.enabled[k] = true) ∧ s.bu.tills[k].outstanding = none ∧
        (kind = .signOn → s.bu.tills[k].session = none) ∧
        (kind ≠ .signOn → s.bu.tills[k].session ≠ none ∧ kind.takenIn s.bu.tills[k].basket.state = true) := by
  have set_of_enabled : s.lineEnabled k = true → s.isSet = true := fun h =>
    let ⟨r, hp, _⟩ := State.lineEnabled_iff.1 h
    s.isSet_iff.2 ⟨r, hp⟩
  rw [← State.lineEnabled_iff, State.Accepts, ← and_assoc, and_iff_right_of_imp set_of_enabled]
  by_cases hk : kind = .signOn <;> simp [hk, State.till, Option.isSome_iff_ne_none]

end Checks

/-! ## The field checks (R67) -/

/-- The first field out of range refuses a request that passed the checks before, and nothing else changes. -/
theorem exec_field_refused {c : Instr} {k : TillNo} {t : Nat} {kind : ReqKind} {s : State} {r : Refused}
    (hc : requestOf c = some (k, t, kind)) (h : s.Accepts k kind) (hf : firstRefusal (fieldChecks s c) = some r) :
    exec c s = .next { s with out := s.out ++ [.answer k t (.refused r)] } := by
  obtain ⟨taken, hx⟩ := exec_request hc s
  rw [hx, State.request_field h hf]

section Fields

variable (s : State) (k : TillNo) (t : Nat)

theorem signOn_fields (cashier level : Nat) :
    (cashier < 1 ∨ 9999 < cashier → firstRefusal (fieldChecks s (.signOn k t cashier level)) = some .badQty) ∧
    (1 ≤ cashier → cashier ≤ 9999 → 3 < level →
      firstRefusal (fieldChecks s (.signOn k t cashier level)) = some .level) := by
  refine ⟨fun h => ?_, fun h1 h2 hl => ?_⟩
  · simp [fieldChecks, checkCashier_refuses h]
  · simp [fieldChecks, checkCashier_passes h1 h2, checkClaimed_refuses hl]

theorem scan_fields (code : Nat) (m : Measure) (level : Option Nat) :
    (9999999999999 < code → firstRefusal (fieldChecks s (.scan k t code m level)) = some .unknownItem) ∧
    (code ≤ 9999999999999 → m.inRange ≠ true →
      firstRefusal (fieldChecks s (.scan k t code m level)) = some .badQty) ∧
    (code ≤ 9999999999999 → m.inRange = true → (∃ l, level = some l ∧ 3 < l) →
      firstRefusal (fieldChecks s (.scan k t code m level)) = some .level) := by
  refine ⟨fun hc => ?_, fun hc hm => ?_, fun hc hm ⟨l, hl, h3⟩ => ?_⟩
  · simp [fieldChecks, checkItemCode_refuses hc]
  · simp [fieldChecks, checkItemCode_passes hc, checkMeasure_refuses hm]
  · simp [fieldChecks, checkItemCode_passes hc, checkMeasure_passes hm, hl, checkClaimed_refuses h3]

theorem key_fields (d price : Nat) (q : Int) (level : Option Nat) :
    (99 < d → firstRefusal (fieldChecks s (.key k t d price q level)) = some .unknownItem) ∧
    (d ≤ 99 → 9999999 < price → firstRefusal (fieldChecks s (.key k t d price q level)) = some .badPrice) ∧
    (d ≤ 99 → price ≤ 9999999 → (Measure.quantity q).inRange ≠ true →
      firstRefusal (fieldChecks s (.key k t d price q level)) = some .badQty) ∧
    (d ≤ 99 → price ≤ 9999999 → (Measure.quantity q).inRange = true → (∃ l, level = some l ∧ 3 < l) →
      firstRefusal (fieldChecks s (.key k t d price q level)) = some .level) := by
  refine ⟨fun hd => ?_, fun hd hp => ?_, fun hd hp hq => ?_, fun hd hp hq ⟨l, hl, h3⟩ => ?_⟩
  · simp [fieldChecks, checkDept_refuses hd]
  · simp [fieldChecks, checkDept_passes hd, checkPrice_refuses hp]
  · simp [fieldChecks, checkDept_passes hd, checkPrice_passes hp, checkMeasure_refuses hq]
  · simp [fieldChecks, checkDept_passes hd, checkPrice_passes hp, checkMeasure_passes hq, hl, checkClaimed_refuses h3]

theorem override_fields (n price level : Nat) :
    (n < 1 ∨ s.bu.tills[k].basket.lines.length < n →
      firstRefusal (fieldChecks s (.override k t n price level)) = some .state) ∧
    (1 ≤ n → n ≤ s.bu.tills[k].basket.lines.length → 9999999 < price →
      firstRefusal (fieldChecks s (.override k t n price level)) = some .badPrice) ∧
    (1 ≤ n → n ≤ s.bu.tills[k].basket.lines.length → price ≤ 9999999 → 3 < level →
      firstRefusal (fieldChecks s (.override k t n price level)) = some .level) := by
  refine ⟨fun hn => ?_, fun h1 h2 hp => ?_, fun h1 h2 hp hl => ?_⟩
  · simp only [fieldChecks, checkLineNumber_refuses hn, firstRefusal_some_cons]
  · simp only [fieldChecks, checkLineNumber_passes h1 h2, checkPrice_refuses hp, firstRefusal_none_cons,
      firstRefusal_some_cons]
  · simp only [fieldChecks, checkLineNumber_passes h1 h2, checkPrice_passes hp, checkClaimed_refuses hl,
      firstRefusal_none_cons, firstRefusal_some_cons]

end Fields

/-! ## O20 -/

/-- The refusals of R66, in their order, for any request. -/
theorem exec_refused_before_fields {c : Instr} {k : TillNo} {t : Nat} {kind : ReqKind} (s : State)
    (hc : requestOf c = some (k, t, kind)) :
    (s.sc.page = none → exec c s = .next { s with out := s.out ++ [.answer k t (.refused .notReady)] }) ∧
    ∀ r : SetupRecord, s.sc.page = some r →
      (r.enabled[k] = false → exec c s = .next s) ∧
      (r.enabled[k] = true → ∀ e, s.judgeRequest k kind (fieldChecks s c) = some e →
        exec c s = .next { s with out := s.out ++ [.answer k t (.refused e)] }) := by
  obtain ⟨taken, hx⟩ := exec_request hc s
  rw [hx]
  exact ⟨fun hp => congrArg _ (State.request_unset hp), fun r hp =>
    ⟨fun hl => congrArg _ (State.request_disabled hp hl), fun hl e hj => congrArg _ (State.request_refused hp hl hj)⟩⟩

/-- Settles O20: every request is one use of `State.request`, whose checks are judged one after the other. -/
theorem requestsAreCheckedInOrder : Obligations.RequestsAreCheckedInOrder := by
  refine ⟨fun c k t kind s hc => ?_, fun s k kind => State.accepts_iff, fun b => ?_, fun k t s refused hr => ?_⟩
  · obtain ⟨unset, onPage⟩ := exec_refused_before_fields s hc
    refine ⟨unset, fun r hp => ⟨(onPage r hp).1, fun hl => ?_⟩⟩
    have refuses := (onPage r hp).2 hl
    refine ⟨fun ho => ?_, fun ho hk hs => ?_, fun ho hk hs => ?_, fun ho hk hs hb => ?_⟩
    · exact refuses _ (State.judgeRequest_pending ho)
    · exact refuses _ (State.judgeRequest_noSession ho hk hs)
    · subst hk
      exact refuses _ (State.judgeRequest_signedOn ho hs)
    · exact refuses _ (State.judgeRequest_notTaken ho hk hs hb)
  · cases b <;> simp [ReqKind.takenIn]
  · obtain rfl : refused = fun r => { s with out := s.out ++ [.answer k t (.refused r)] } := funext hr
    refine ⟨fun cashier level h => ?_, fun code m level h => ?_, fun d price q level h => ?_, fun n h hn => ?_,
      fun n price level h => ?_, fun method amount h ha => ?_, fun l h hl => ?_, fun l h hl => ?_,
      fun ticket h ht => ?_, fun code h hc => ?_⟩
    · obtain ⟨badCashier, badLevel⟩ := signOn_fields s k t cashier level
      exact ⟨fun hc => exec_field_refused rfl h (badCashier hc),
        fun h1 h2 hl => exec_field_refused rfl h (badLevel h1 h2 hl)⟩
    · obtain ⟨badCode, badMeasure, badLevel⟩ := scan_fields s k t code m level
      exact ⟨fun hc => exec_field_refused rfl h (badCode hc),
        fun hc hq hg => exec_field_refused rfl h (badMeasure hc (Measure.not_inRange_of hq hg)),
        fun hc hq hg hl => exec_field_refused rfl h (badLevel hc (Measure.inRange_of hq hg) hl)⟩
    · obtain ⟨badDept, badPrice, badQuantity, badLevel⟩ := key_fields s k t d price q level
      have quantity := Measure.quantity_inRange q
      exact ⟨fun hd => exec_field_refused rfl h (badDept hd),
        fun hd hp => exec_field_refused rfl h (badPrice hd hp),
        fun hd hp hq => exec_field_refused rfl h (badQuantity hd hp (by rw [Ne, quantity]; omega)),
        fun hd hp h1 h2 h3 hl => exec_field_refused rfl h (badLevel hd hp (quantity.2 ⟨h1, h2, h3⟩) hl)⟩
    · exact exec_field_refused rfl h (by simp only [fieldChecks, checkLineNumber_refuses hn, firstRefusal_some_cons])
    · obtain ⟨badNumber, badPrice, badLevel⟩ := override_fields s k t n price level
      exact ⟨fun hn => exec_field_refused rfl h (badNumber hn),
        fun h1 h2 hp => exec_field_refused rfl h (badPrice h1 h2 hp),
        fun h1 h2 hp hl => exec_field_refused rfl h (badLevel h1 h2 hp hl)⟩
    · exact exec_field_refused rfl h (by simp [fieldChecks, checkAmount_refuses ha])
    · exact exec_field_refused rfl h (by simp [fieldChecks, checkClaimed_refuses hl])
    · exact exec_field_refused rfl h (by simp [fieldChecks, checkClaimed_refuses hl])
    · exact exec_field_refused rfl h (by simp [fieldChecks, checkTicket_refuses ht])
    · exact exec_field_refused rfl h (by simp [fieldChecks, checkItemCode_refuses hc])

end Sys2Proof.Machine

/-!
PROOFS. Routing (R161 to R163, R170): which entry of a table `bestRoute` takes, what a prefix covers, what the table
lists, what becomes of a packet by the next hop of its route, and O38 from these.
-/

namespace Sys2Proof.Machine

/-! ## Prefixes (section 9.1) -/

theorem Net.covers_iff {n : Net} {a : NetAddr} (hn : n.len ≤ 32) :
    n.covers a = true ↔ ∀ i, i < n.len → a.getMsbD i = n.addr.getMsbD i := by
  rw [Net.covers, beq_iff_eq]
  constructor
  · intro same i hi
    have bit := congrArg (fun x : BitVec 32 => x.getMsbD (32 - n.len + i)) same
    have within : 32 - n.len + i < 32 := by omega
    have unshifted : ¬32 - n.len + i < 32 - n.len := by omega
    simpa only [BitVec.getMsbD_ushiftRight, within, unshifted, decide_true, decide_false, Bool.not_false,
      Bool.true_and, Nat.add_sub_cancel_left] using bit
  · intro bits
    apply BitVec.eq_of_getMsbD_eq
    intro i hi
    by_cases shifted : i < 32 - n.len
    · simp [BitVec.getMsbD_ushiftRight, shifted]
    · have bit := bits (i - (32 - n.len)) (by omega)
      simp [BitVec.getMsbD_ushiftRight, shifted, bit]

/-- The till line of an address is the one whose number is the address's offset less 1 (R163). -/
theorem lineOf_eq_some_iff {n : Net} {a : NetAddr} {k : TillNo} :
    lineOf n a = some k ↔ a = n.start + BitVec.ofNat 32 (k.val + 1) := by
  have offset : a = n.start + BitVec.ofNat 32 (k.val + 1) ↔ (a - n.start).toNat = k.val + 1 := by
    have := k.isLt
    bv_omega
  rw [offset, lineOf, Option.dite_none_right_eq_some]
  have := k.isLt
  simp only [Option.some.injEq, Fin.ext_iff]
  constructor
  · rintro ⟨_, line⟩
    omega
  · intro h
    exact ⟨by omega, by omega⟩

/-! ## The longest prefix (R161) -/

section Best

variable {rs before after : List Route} {r b : Route} {dst : NetAddr}

theorem bestRoute_concat_uncovered (h : r.net.covers dst = false) :
    bestRoute (rs ++ [r]) dst = bestRoute rs dst := by
  simp [bestRoute, h]

theorem bestRoute_concat_first (h : r.net.covers dst = true) (hb : bestRoute rs dst = none) :
    bestRoute (rs ++ [r]) dst = some r := by
  simp_all [bestRoute]

theorem bestRoute_concat_longer (h : r.net.covers dst = true) (hb : bestRoute rs dst = some b)
    (longer : b.net.len < r.net.len) : bestRoute (rs ++ [r]) dst = some r := by
  simp_all [bestRoute]

/-- Among equal lengths the entry found first stays. -/
theorem bestRoute_concat_kept (hb : bestRoute rs dst = some b)
    (h : r.net.covers dst = true → r.net.len ≤ b.net.len) : bestRoute (rs ++ [r]) dst = some b := by
  cases hc : r.net.covers dst with
  | false => rw [bestRoute_concat_uncovered hc, hb]
  | true => simp_all [bestRoute, Nat.not_lt.2]

/-- The entry of R161: it covers the destination, the covering entries before it in the table are shorter, and those
behind it no longer. -/
def IsBestRoute (rs : List Route) (dst : NetAddr) (r : Route) : Prop :=
  r.net.covers dst = true ∧ ∃ before after, rs = before ++ r :: after ∧
    (∀ x ∈ before, x.net.covers dst = true → x.net.len < r.net.len) ∧
    (∀ x ∈ after, x.net.covers dst = true → x.net.len ≤ r.net.len)

theorem IsBestRoute.mem (h : IsBestRoute rs dst r) : r ∈ rs := by
  obtain ⟨_, before, after, rfl, _⟩ := h
  simp

theorem IsBestRoute.len_le (h : IsBestRoute rs dst r) {x : Route} (hx : x ∈ rs) (hc : x.net.covers dst = true) :
    x.net.len ≤ r.net.len := by
  obtain ⟨_, before, after, rfl, shorter, noLonger⟩ := h
  rcases List.mem_append.1 hx with hx | hx
  · exact Nat.le_of_lt (shorter x hx hc)
  · rcases List.mem_cons.1 hx with rfl | hx
    · exact Nat.le_refl _
    · exact noLonger x hx hc

theorem IsBestRoute.concat_kept (h : IsBestRoute rs dst b) (hr : r.net.covers dst = true → r.net.len ≤ b.net.len) :
    IsBestRoute (rs ++ [r]) dst b := by
  obtain ⟨covered, before, after, rfl, shorter, noLonger⟩ := h
  refine ⟨covered, before, after ++ [r], by simp, shorter, fun x hx hc => ?_⟩
  rcases List.mem_append.1 hx with hx | hx
  · exact noLonger x hx hc
  · obtain rfl := List.mem_singleton.1 hx
    exact hr hc

theorem IsBestRoute.concat_new (hr : r.net.covers dst = true)
    (shorter : ∀ x ∈ rs, x.net.covers dst = true → x.net.len < r.net.len) : IsBestRoute (rs ++ [r]) dst r :=
  ⟨hr, rs, [], rfl, shorter, by simp⟩

/-- Induction from the end of a list. Mathlib's `List.reverseRecOn` is out of reach: the package builds on core Lean. -/
theorem concat_induction {α : Type} {motive : List α → Prop} (nil : motive [])
    (concat : ∀ l x, motive l → motive (l ++ [x])) (l : List α) : motive l := by
  rw [← l.reverse_reverse]
  induction l.reverse with
  | nil => exact nil
  | cons x l ih =>
    rw [List.reverse_cons]
    exact concat _ x ih

/-- What the search has found at the end of each table: nothing where no entry covers, the entry of R161 otherwise. -/
theorem bestRoute_spec (rs : List Route) (dst : NetAddr) :
    (bestRoute rs dst = none ∧ ∀ x ∈ rs, x.net.covers dst = false) ∨
      ∃ r, bestRoute rs dst = some r ∧ IsBestRoute rs dst r := by
  induction rs using concat_induction with
  | nil => exact .inl ⟨rfl, by simp⟩
  | concat rs r ih =>
    cases hc : r.net.covers dst with
    | false =>
      rw [bestRoute_concat_uncovered hc]
      exact ih.imp (fun ⟨nothing, uncovered⟩ => ⟨nothing, by simpa [or_imp, forall_and, hc] using uncovered⟩)
        fun ⟨b, found, best⟩ => ⟨b, found, best.concat_kept (by simp [hc])⟩
    | true =>
      right
      obtain ⟨nothing, uncovered⟩ | ⟨b, found, best⟩ := ih
      · exact ⟨r, bestRoute_concat_first hc nothing, .concat_new hc fun x hx h => by simp [uncovered x hx] at h⟩
      · by_cases longer : b.net.len < r.net.len
        · exact ⟨r, bestRoute_concat_longer hc found longer,
            .concat_new hc fun x hx h => Nat.lt_of_le_of_lt (best.len_le hx h) longer⟩
        · exact ⟨b, bestRoute_concat_kept found fun _ => Nat.not_lt.1 longer,
            best.concat_kept fun _ => Nat.not_lt.1 longer⟩

theorem bestRoute_eq_none_iff : bestRoute rs dst = none ↔ ∀ x ∈ rs, x.net.covers dst = false := by
  obtain ⟨nothing, uncovered⟩ | ⟨b, found, best⟩ := bestRoute_spec rs dst
  · exact iff_of_true nothing uncovered
  · have covered := best.1
    exact iff_of_false (by simp [found]) fun uncovered => by simp [uncovered b best.mem] at covered

theorem IsBestRoute.found (h : IsBestRoute rs dst r) : bestRoute rs dst = some r := by
  obtain ⟨covered, before, after, rfl, shorter, noLonger⟩ := h
  induction after using concat_induction with
  | nil =>
    obtain ⟨nothing, _⟩ | ⟨b, found, best⟩ := bestRoute_spec before dst
    · exact bestRoute_concat_first covered nothing
    · exact bestRoute_concat_longer covered found (shorter b best.mem best.1)
  | concat after x ih =>
    have kept := ih fun y hy => noLonger y (List.mem_append_left _ hy)
    simpa using bestRoute_concat_kept kept (noLonger x (by simp))

theorem bestRoute_eq_some_iff : bestRoute rs dst = some r ↔ IsBestRoute rs dst r := by
  refine ⟨fun h => ?_, IsBestRoute.found⟩
  obtain ⟨nothing, _⟩ | ⟨b, found, best⟩ := bestRoute_spec rs dst
  · simp [nothing] at h
  · obtain rfl := Option.some.inj (found.symm.trans h)
    exact best

end Best

/-! ## The route table (R158 to R160) -/

theorem Forwarding.table_eq (f : Forwarding) :
    f.table = f.setupRoutes ++ (List.finRange 16).filterMap fun n => f.learned[n].map fun net =>
      { net := net, hop := .trunkStation n, till := true, office := true, guest := false } := rfl

theorem Forwarding.mem_table_iff {f : Forwarding} {r : Route} :
    r ∈ f.table ↔ r ∈ f.setupRoutes ∨ ∃ (n : Station) (net : Net), f.learned[n] = some net ∧
      r = { net := net, hop := .trunkStation n, till := true, office := true, guest := false } := by
  simp only [Forwarding.table_eq, List.mem_append, List.mem_filterMap, List.mem_finRange, true_and,
    Option.map_eq_some_iff]
  exact or_congr_right (exists_congr fun n => exists_congr fun net => and_congr_right fun _ => eq_comm)

/-! ## What becomes of a packet (R162, R163) -/

theorem Packet.lengthOk_iff {p : Packet} : p.lengthOk = true ↔ 20 ≤ p.len ∧ p.len ≤ 1500 := by
  simp [Packet.lengthOk]

section Route

variable {from_ : Entry} {cls : OriginClass} {p : Packet} {s : State} {r : Route}

theorem Entry.crossed_iff : from_.crossed = true ↔ from_ = .relay := by
  cases from_ <;> simp [Entry.crossed]

theorem State.route_badLength (hl : p.len < 20 ∨ 1500 < p.len) : s.route from_ cls p = s.dropPacket cls := by
  have bad : p.lengthOk = false := by rw [← Bool.not_eq_true, Packet.lengthOk_iff]; omega
  simp [State.route, bad]

theorem State.route_uncovered (hl : p.lengthOk = true) (hb : bestRoute s.fu.table p.dst = none) :
    s.route from_ cls p = s.dropPacket cls := by
  simp [State.route, hl, hb]

/-- A mask that forbids the class drops the packet (R162). -/
theorem State.route_forbidden (hl : p.lengthOk = true) (hb : bestRoute s.fu.table p.dst = some r)
    (hp : r.permits cls = false) :
    (∀ a, from_ = .guestAir a → cls = .guest → s.route from_ cls p = (s.dropPacket cls).strike a) ∧
    ((∀ a, from_ ≠ .guestAir a) ∨ cls ≠ .guest → s.route from_ cls p = s.dropPacket cls) := by
  constructor
  · rintro a rfl rfl
    simp [State.route, hl, hb, hp]
  · intro noClient
    cases from_ with
    | guestAir a => cases cls <;> simp_all [State.route]
    | till | office | relay | uplink => simp [State.route, hl, hb, hp]

/-- The next hops that a permitted packet takes, each by its own operation (R163). -/
def State.takeHop (from_ : Entry) (cls : OriginClass) (p : Packet) (s : State) : NextHop → State
  | .drop => s.dropPacket cls
  | .tillLines => s.toTill cls p
  | .guestPort => s.deliverGuest p
  | .trunkStation n => s.toStation from_ n cls p
  | .uplink | .trunkCarrier => s.toCarrier from_ cls p

theorem State.route_permitted (hl : p.lengthOk = true) (hb : bestRoute s.fu.table p.dst = some r)
    (hp : r.permits cls = true) : s.route from_ cls p = s.takeHop from_ cls p r.hop := by
  cases hh : r.hop <;> simp [State.route, hl, hb, hp, hh, State.takeHop]

theorem State.toTill_page {sr : SetupRecord} (hpage : s.sc.page = some sr) :
    (∀ k : TillNo, p.dst = sr.tillNet.start + BitVec.ofNat 32 (k.val + 1) → sr.enabled[k] = true →
      s.toTill cls p = { s with out := s.out ++ [.tillData k p] }) ∧
    ((∀ k : TillNo, p.dst = sr.tillNet.start + BitVec.ofNat 32 (k.val + 1) → sr.enabled[k] = false) →
      s.toTill cls p = s.dropPacket cls) := by
  simp only [← lineOf_eq_some_iff]
  refine ⟨fun k line enabled => ?_, fun disabled => ?_⟩
  · simp [State.toTill, hpage, line, (State.lineEnabled_of_page hpage).trans enabled, State.emit]
  · cases line : lineOf sr.tillNet p.dst with
    | none => simp [State.toTill, hpage, line]
    | some k => simp [State.toTill, hpage, line, (State.lineEnabled_of_page hpage).trans (disabled k line)]

theorem State.toStation_cases (n : Station) :
    (from_ = .relay ∨ s.tp.peers[n].state = .absent → s.toStation from_ n cls p = s.dropPacket cls) ∧
    (from_ ≠ .relay → s.tp.peers[n].state ≠ .absent → s.toStation from_ n cls p = s.relayTo n cls p) := by
  refine ⟨fun h => ?_, fun uncrossed present => ?_⟩
  · obtain crossed | absent := h
    · rw [State.toStation, if_pos (Entry.crossed_iff.2 crossed)]
    · rw [State.toStation, if_pos absent, ite_self]
  · rw [State.toStation, if_neg (mt Entry.crossed_iff.1 uncrossed), if_neg present]

/-- A packet toward the carrier by the judgement of the moment: nobody, this station, or another one. -/
theorem State.toCarrier_cases :
    (s.judge = none → s.toCarrier from_ cls p = { s with fu := { s.fu with noCarrier := bump s.fu.noCarrier } }) ∧
    (s.judge = some s.stn → from_ = .uplink → s.toCarrier from_ cls p = s.dropPacket cls) ∧
    (s.judge = some s.stn → from_ ≠ .uplink → s.toCarrier from_ cls p = s.enqueueUplink cls p) ∧
    (∀ c : Station, s.judge = some c → c ≠ s.stn → from_ = .relay →
      s.toCarrier from_ cls p = { s with fu := { s.fu with noCarrier := bump s.fu.noCarrier } }) ∧
    (∀ c : Station, s.judge = some c → c ≠ s.stn → from_ ≠ .relay →
      s.toCarrier from_ cls p = s.relayTo c cls p) := by
  refine ⟨fun nobody => ?_, fun own back => ?_, fun own forth => ?_, fun c carrier other crossed => ?_,
    fun c carrier other uncrossed => ?_⟩
  · simp [State.toCarrier, nobody, State.dropNoCarrier, State.onFu]
  · simp [State.toCarrier, own, back]
  · simp [State.toCarrier, own, forth]
  · simp [State.toCarrier, carrier, other, Entry.crossed_iff.2 crossed, State.dropNoCarrier, State.onFu]
  · simp [State.toCarrier, carrier, other, Entry.crossed_iff, uncrossed]

/-- A drop is counted by the packet's class alone (R170). -/
theorem State.dropPacket_counts (s : State) :
    s.dropPacket .till = { s with fu := { s.fu with droppedTill := bump s.fu.droppedTill } } ∧
    s.dropPacket .office = { s with fu := { s.fu with droppedOffice := bump s.fu.droppedOffice } } ∧
    s.dropPacket .guest = { s with fu := { s.fu with guestDropped := bump s.fu.guestDropped } } :=
  ⟨rfl, rfl, rfl⟩

end Route

/-! ## O38 -/

/-- Settles O38: `bestRoute` takes the entry of R161, and a permitted packet goes by the operation of its next hop. -/
theorem packetsAreRoutedByTheLongestPrefix : Obligations.PacketsAreRoutedByTheLongestPrefix := by
  refine ⟨⟨fun rs dst => ⟨bestRoute_eq_none_iff, fun r => bestRoute_eq_some_iff⟩, fun n a => Net.covers_iff,
    fun f r => Forwarding.mem_table_iff, Forwarding.table_eq⟩,
    fun from_ cls p s => ⟨State.route_badLength, fun h20 h1500 => ?_, s.dropPacket_counts⟩⟩
  have hl : p.lengthOk = true := Packet.lengthOk_iff.2 ⟨h20, h1500⟩
  refine ⟨State.route_uncovered hl, fun r hb => ⟨State.route_forbidden hl hb, fun hp => ?_⟩⟩
  rw [State.route_permitted hl hb hp]
  refine ⟨fun hop => ?_, fun hop => ?_, fun sr hop hpage => ?_, fun n hop => ?_, fun hop => ?_⟩
  · rw [hop]; rfl
  · rw [hop]; rfl
  · rw [hop]
    exact State.toTill_page hpage
  · rw [hop]
    exact State.toStation_cases n
  · have toCarrier : s.takeHop from_ cls p r.hop = s.toCarrier from_ cls p := by
      rcases hop with hop | hop <;> rw [hop] <;> rfl
    rw [toCarrier]
    exact State.toCarrier_cases

end Sys2Proof.Machine
